-- ==== Sys2Proof/Word.lean ====
section
/-! DEFINITION. The word types of the UB42: bytes, 16-bit counters, and the index types of its ports, slots, map
entries and store entries. -/
namespace Sys2Proof

/-- A byte of a message or of a two-wire transfer. -/
abbrev Byte := BitVec 8

/-- A 16-bit counter (00_scope.md section 7). -/
abbrev Count := BitVec 16

/-- A host port, HP0 to HP3. -/
abbrev PortId := Fin 4

/-- A slot of the slot pool, 0 to 23 (R22). -/
abbrev SlotId := Fin 24

/-- The index of a map entry, which is a logical target, 0 to 47 (R3). -/
abbrev TargetId := Fin 48

/-- An entry of a port's short-reply store (R162). -/
abbrev StoreIx := Fin 6

/-- A subset of the host ports: bit n stands for HPn (R155). -/
abbrev PortSet := BitVec 4

/-- A segment: one of the two two-wire buses. -/
inductive SegId where
  | A
  | B
  deriving DecidableEq, Repr

/-- The byte of value `n`. -/
def byte (n : Nat) : Byte := BitVec.ofNat 8 n

end Sys2Proof
end

