-- ==== Sys2Proof/Syntax.lean ====
section
/-! DEFINITION. The commands of the UB42: one constructor for each row of spec/opcode_table.json, with the operands
that the row's rule speaks of. -/
namespace Sys2Proof

/-- The levels of a segment's two lines as they are seen; true is high (R60). -/
structure Levels where
  clock : Bool
  data : Bool
  deriving DecidableEq, Repr

/-- The line levels that a receiver samples in one character after its start bit (R120), true for a high line: the
eight data bits in the order of the line (bit i of `data` is the i-th sampled), the parity bit, and the stop bits. A
format without parity, or with one stop bit, has no such sample, and the field is not read (log entry 6). -/
structure RxChar where
  data : Byte
  parity : Bool
  stop1 : Bool
  stop2 : Bool
  deriving DecidableEq, Repr

/-- How a loss of arbitration is seen (R88): the released data line seen low, in a byte in the bit given (0 to 7 the data
bits in the order of the wire, 8 the acknowledge bit); or, at a repeated start or a stop, where no bit is counted, the
clock seen falling early. `data` holds the levels read in the byte's data bits, as in ACKNOWLEDGE_BIT_READ; it is read only
where the bit is the acknowledge bit of a byte the engine reads, so that all eight have been read (R72; log entry 36). -/
inductive LossCause where
  | dataLow (bit : Fin 9) (data : Byte)
  | clockFell
  deriving DecidableEq, Repr

/-- How a closing stop fails (R102). -/
inductive StopFailure where
  | dataNotHigh
  | clockFell
  | clockHeld
  deriving DecidableEq, Repr

/-- How a recovery stop ends (R106). A clock held low is the command RECOVERY_CLOCK_HELD. -/
inductive StopEnd where
  | complete
  | dataNotHigh
  | clockFell
  deriving DecidableEq, Repr

/-- The commands, in the order of the table. Each message command names its port, its frame tag and its body; a
management command carries the argument bytes that follow its operation code (R154). ACKNOWLEDGE_BIT_READ carries the levels
read in the eight data bits of the byte, bit k of `data` that of the k-th on the wire, and the level read in its
acknowledge bit where the engine released it (log entry 36). -/
inductive Instr where
  | deviceReset
  | deviceResetEnd (a b : Levels)
  | characterReceived (p : PortId) (c : RxChar)
  | crcError (p : PortId) (kind tag : Byte) (body : List Byte) (crc : BitVec 16)
  | badverBadkindMessage (p : PortId) (kind tag : Byte) (body : List Byte)
  | breakWatchEndsAtMark (p : PortId)
  | gapTimerExpiry (p : PortId)
  | breakRecognized (p : PortId)
  | breakEnd (p : PortId)
  | messageTransmitted (p : PortId)
  | txn (p : PortId) (tag : Byte) (body : List Byte)
  | cancel (p : PortId) (tag : Byte) (body : List Byte)
  | mapWrite (p : PortId) (tag : Byte) (args : List Byte)
  | mapRead (p : PortId) (tag : Byte) (args : List Byte)
  | mapRetire (p : PortId) (tag : Byte) (args : List Byte)
  | portSet (p : PortId) (tag : Byte) (args : List Byte)
  | portRead (p : PortId) (tag : Byte) (args : List Byte)
  | segSet (p : PortId) (tag : Byte) (args : List Byte)
  | segHold (p : PortId) (tag : Byte) (args : List Byte)
  | segRelease (p : PortId) (tag : Byte) (args : List Byte)
  | segRecover (p : PortId) (tag : Byte) (args : List Byte)
  | segReset (p : PortId) (tag : Byte) (args : List Byte)
  | statusRead (p : PortId) (tag : Byte) (args : List Byte)
  | restart (p : PortId) (tag : Byte) (args : List Byte)
  | choice (g : SegId)
  | openingStart (g : SegId)
  | attemptEndsOk (g : SegId)
  | attemptEndsAddressNack (g : SegId)
  | attemptEndsDataNack (g : SegId)
  | attemptEndsArbitrationLost (g : SegId)
  | stretchTimeout (g : SegId)
  | attemptEndsAborted (g : SegId)
  | retryTimerExpiry (i : SlotId)
  | lifetimeExpiry (i : SlotId)
  | monitorStartSeen (g : SegId)
  | monitorStopSeen (g : SegId)
  | lineLow (g : SegId) (l : Levels)
  | bothLinesHigh (g : SegId)
  | busFreeTimerExpiry (g : SegId)
  | busyLongTimerExpiry (g : SegId)
  | quietTimerExpiry (g : SegId)
  | dataHeldTimerExpiry (g : SegId)
  | clockHeldTimerExpiry (g : SegId)
  | closingStopComplete (g : SegId)
  | closingStopFails (g : SegId) (how : StopFailure)
  | releasePulse (g : SegId) (data : Bool)
  | recoveryClockHeld (g : SegId)
  | recoveryStopComplete (g : SegId) (how : StopEnd)
  | startBit (p : PortId) (stands : Bool)
  | acknowledgeBitRead (g : SegId) (data : Byte) (ninth : Bool)
  | arbitrationLost (g : SegId) (how : LossCause)
  | mgmtBadop (p : PortId) (tag : Byte) (body : List Byte)
  | transmitterHeld (p : PortId)
  deriving DecidableEq, Repr

end Sys2Proof
end

