-- ==== Sys2Proof/Config.lean ====
section
/-! DEFINITION. What the manual fixes as numbers for every UB42, and the free values of the model. -/
namespace Sys2Proof.Config

/-- The number of slots one port may occupy at once (R23). -/
def window : Nat := 8

/-- The loss of arbitration that answers a request ARBLOST (R31, R92). -/
def lossLimit : Nat := 8

/-- The passed-over count at which a request is promoted, and at which the count stops (R45, R46). -/
def promotion : Nat := 4

/-- The effective priority of a promoted request (R45). -/
def promotedPriority : Nat := 4

/-- The largest body length of a frame (R134). -/
def maxBody : Nat := 200

/-- The bytes of a frame beside its body: lead, kind, tag, length and two of CRC (R134). -/
def frameOverhead : Nat := 6

/-- The most release pulses one recovery gives (R105). -/
def pulseLimit : Nat := 9

/-- The length of the data-held timer, in milliseconds (R101). -/
def dataHeldMs : Nat := 1

/-- FREE VALUE (log entry 19): which of the two schedulers makes the next RETIRED result of one purge ready, read
at the n-th such choice. R17 gives no order between them. It has no body, so a claim holds for every order. -/
opaque freeChoice : Nat → Bool

/-- FREE VALUE (log entry 37): whether the engine whose clock was last seen low has released it and follows it at the moment
of an abort (R80), read at the n-th free value. No command shows the release of a clock that stays low. It has no body, so
a claim holds for both. -/
opaque freeClockReleased : Nat → Bool

end Sys2Proof.Config
end

