-- ==== Sys2Proof/Machine/State.lean ====
section
/-! DEFINITION. The state of the UB42 as plain data: every item the manual's blocks own (00_scope.md section 3), the
queue of waiting commands, and the state after reset. -/
namespace Sys2Proof.Machine

/-! ## Why a step could stop -/

/-- The reasons a step can stop with a fault. The manual gives the part no event that stops it (a segment's FAULT is a
state of its engine), so nobody raises this one: it is there because the host's interface asks for a type. Safe: no
step answers it (log entry 23). -/
inductive Fault where
  | noneInManual
  deriving DecidableEq, Repr

/-- The reasons a step can be refused. -/
inductive Refusal where
  /-- Raised by exec for a row of the table that has no meaning yet; none is left (log entry 23). Safe. -/
  | notModelled (mnemonic : String)
  deriving DecidableEq, Repr

/-! ## The target map -/

/-- The address form of a target (R3, R69). -/
inductive AddressForm where
  | sevenBit
  | tenBit
  deriving DecidableEq, Repr

/-- The nominal clock rate (R3, R12). -/
inductive Speed where
  | standard
  | fast
  deriving DecidableEq, Repr

/-- One map entry (R3). -/
structure MapEntry where
  valid : Bool
  segment : SegId
  form : AddressForm
  address : Nat
  subWidth : Nat
  windowLow : Nat
  windowHigh : Nat
  maxTransfer : Nat
  readPorts : PortSet
  writePorts : PortSet
  priority : Nat
  retryLimit : Nat
  retryInterval : Nat
  speed : Speed
  slowDown : Nat
  deriving DecidableEq, Repr

/-- The reset values of a map entry (R3). -/
def MapEntry.reset : MapEntry where
  valid := false
  segment := .A
  form := .sevenBit
  address := 0
  subWidth := 0
  windowLow := 0
  windowHigh := 0
  maxTransfer := 0
  readPorts := 0
  writePorts := 0
  priority := 0
  retryLimit := 0
  retryInterval := 0
  speed := .standard
  slowDown := 0

/-! ## Requests -/

/-- The snapshot of a map entry in a request record (R13). -/
structure Snapshot where
  segment : SegId
  form : AddressForm
  address : Nat
  subWidth : Nat
  priority : Nat
  retryLimit : Nat
  retryInterval : Nat
  speed : Speed
  slowDown : Nat
  deriving DecidableEq, Repr

/-- The fields of an entry that a snapshot copies (R13). -/
def MapEntry.snapshot (e : MapEntry) : Snapshot where
  segment := e.segment
  form := e.form
  address := e.address
  subWidth := e.subWidth
  priority := e.priority
  retryLimit := e.retryLimit
  retryInterval := e.retryInterval
  speed := e.speed
  slowDown := e.slowDown

/-- The four operations of a request (R19). -/
inductive Operation where
  | read
  | write
  | xfer
  | probe
  deriving DecidableEq, Repr

/-- The states of a request (section 2.4). -/
inductive RequestState where
  | free
  | pending
  | deferred
  | active
  | answer
  deriving DecidableEq, Repr

/-- The statuses of a result (R150). -/
inductive Status where
  | ok
  | nackaddr
  | nackdata
  | arblost
  | stretch
  | segfault
  | aborted
  | cancelled
  | expired
  | retired
  deriving DecidableEq, Repr

/-- The where codes of a result (R150). -/
inductive Where where
  | none
  | address
  | subAddress
  | writeData
  | readData
  | stopOrRestart
  deriving DecidableEq, Repr

/-- The result of a request (R21). -/
structure Result where
  status : Status
  place : Where
  written : Nat
  readData : List Byte
  deriving DecidableEq, Repr

/-- A slot with its request record (R19) and the timers its scheduler keeps for it (R48, R49), each `none` when
stopped and else the length in milliseconds it was started with. `admission` is the model's number for the place of
the request in the order of admissions that R41 speaks of (log entry 20). -/
structure Slot where
  state : RequestState
  orphan : Bool
  owner : PortId
  tag : Byte
  target : Nat
  snapshot : Snapshot
  operation : Operation
  subAddress : Option Nat
  writeData : List Byte
  readLength : Option Nat
  deadlinePassed : Bool
  losses : Nat
  retriesUsed : Nat
  passedOver : Nat
  attempts : Nat
  result : Option Result
  lifetimeTimer : Option Nat
  retryTimer : Option Nat
  admission : Nat
  deriving DecidableEq, Repr

/-- A FREE slot with its record cleared (R22). R22 does not name the operation of a cleared record and R19 has no absent
one: READ is the model's choice (DESIGN CHOICE, log entry 33). -/
def Slot.cleared : Slot where
  state := .free
  orphan := false
  owner := 0
  tag := 0
  target := 0
  snapshot := MapEntry.reset.snapshot
  operation := .read
  subAddress := none
  writeData := []
  readLength := none
  deadlinePassed := false
  losses := 0
  retriesUsed := 0
  passedOver := 0
  attempts := 0
  result := none
  lifetimeTimer := none
  retryTimer := none
  admission := 0

/-! ## Segments -/

/-- The phases of an attempt (R68). -/
inductive Phase where
  | start
  | address
  | subAddress
  | write
  | restart
  | addressRead
  | read
  | stop
  deriving DecidableEq, Repr

/-- The kinds of failure of an attempt (R76, R77). -/
inductive FailKind where
  | addressNack
  | dataNack
  | arbitrationLost
  | stretchTimeout
  | aborted
  deriving DecidableEq, Repr

/-- A first failure with its where code (R67). -/
structure Failure where
  kind : FailKind
  place : Where
  deriving DecidableEq, Repr

/-- What an attempt captures at its opening start: the clock's low and high phase in sixteenths of a microsecond
(R61), and the stretch timeout in milliseconds (R62). -/
structure AttemptTiming where
  low : Nat
  high : Nat
  stretch : Nat
  deriving DecidableEq, Repr

/-- The attempt record (R67). `timing` is absent until the opening start. `restarted` says, in RESTART, that the repeated
start has been seen on the wire and the clock is not yet driven low (R63, R68; log entry 11). -/
structure Attempt where
  slot : SlotId
  phase : Phase
  restarted : Bool
  bytePos : Nat
  written : Nat
  readData : List Byte
  failure : Option Failure
  following : Bool
  timing : Option AttemptTiming
  deriving DecidableEq, Repr

/-- The engine states (R98). RUN carries its attempt record, CHECK says whether a closing stop is being made (R102),
RECOVER whether its recovery stop is (R106). -/
inductive Engine where
  | off
  | check (closing : Bool)
  | idle
  | run (a : Attempt)
  | recover (stopping : Bool)
  | fault
  deriving DecidableEq, Repr

/-- The monitor states (R83). -/
inductive Monitor where
  | busy
  | settling
  | free
  deriving DecidableEq, Repr

/-- Bus-free wait in microseconds, stretch timeout and busy-long limit in milliseconds (R86, R108). -/
structure Timing where
  busFreeWait : Nat
  stretchTimeout : Nat
  busyLongLimit : Nat
  deriving DecidableEq, Repr

/-- The reset timing (R108). -/
def Timing.reset : Timing where
  busFreeWait := 5
  stretchTimeout := 25
  busyLongLimit := 0

/-- The segment setup record (R108). -/
structure Setup where
  enable : Bool
  timing : Timing
  deriving DecidableEq, Repr

/-- An outstanding recovery: the asking port and the tag of its SEG_RECOVER (R99). -/
structure Recovery where
  port : PortId
  tag : Byte
  deriving DecidableEq, Repr

/-- The seven segment counters (R114). -/
structure SegCounters where
  transactionsOk : Count
  addressNacks : Count
  dataNacks : Count
  arbitrationLosses : Count
  stretchTimeouts : Count
  recoveries : Count
  busyLongEvents : Count
  deriving DecidableEq, Repr

/-- All segment counters at 0 (R114). -/
def SegCounters.zero : SegCounters := ⟨0, 0, 0, 0, 0, 0, 0⟩

/-- A segment: its scheduler (R41, R55), its engine (R98, R99, R108, R114), its bus monitor (R83), and the levels of
its two lines as last seen (R60). A timer is `none` when stopped and else the length it was started with. -/
structure Seg where
  list : List SlotId
  held : Bool
  engine : Engine
  setup : Setup
  inForce : Timing
  stopOwed : Bool
  readyOwed : Bool
  recovery : Option Recovery
  pulseCount : Nat
  quietTimer : Option Nat
  dataHeldTimer : Option Nat
  clockHeldTimer : Option Nat
  counters : SegCounters
  monitor : Monitor
  busFreeTimer : Option Nat
  busyLongTimer : Option Nat
  busyLongReported : Bool
  scl : Bool
  sda : Bool
  deriving DecidableEq, Repr

/-- A segment at the values of R83, R59 and R115 with every timer stopped, as it stands while RESETN is low; the line
levels are those given. -/
def Seg.resetHeld (scl sda : Bool) : Seg where
  list := []
  held := false
  engine := .check false
  setup := ⟨true, Timing.reset⟩
  inForce := Timing.reset
  stopOwed := false
  readyOwed := false
  recovery := none
  pulseCount := 0
  quietTimer := none
  dataHeldTimer := none
  clockHeldTimer := none
  counters := SegCounters.zero
  monitor := .settling
  busFreeTimer := none
  busyLongTimer := none
  busyLongReported := false
  scl := scl
  sda := sda

/-! ## Host ports -/

/-- The parity of a line format (R116). -/
inductive Parity where
  | none
  | even
  | odd
  deriving DecidableEq, Repr

/-- The line format part of a port profile (R116). -/
structure LineFormat where
  divisor : Nat
  parity : Parity
  stopBits : Nat
  inverted : Bool
  msbFirst : Bool
  gapTime : Nat
  breakThreshold : Nat
  deriving DecidableEq, Repr

/-- The reset format: 9600 bit/s, no parity, 1 stop bit, normal polarity, LSB first (R116). -/
def LineFormat.reset : LineFormat where
  divisor := 120
  parity := .none
  stopBits := 1
  inverted := false
  msbFirst := false
  gapTime := 4
  breakThreshold := 3

/-- The switch point of a pending switch (R129): the completion of the MREPLY in an entry of the port's own store, or
the completion of the message in progress. -/
inductive SwitchPoint where
  | replySent (e : StoreIx)
  | messageSent
  deriving DecidableEq, Repr

/-- A pending switch (R128). -/
structure PendingSwitch where
  format : LineFormat
  point : SwitchPoint
  deriving DecidableEq, Repr

/-- Where a receiver stands: waiting to see mark (R120, R130, R133), ready for a start bit, in a character, in break
watch (R123), or in break hold (R126). -/
inductive Receiver where
  | waitMark
  | ready
  | inCharacter
  | breakWatch
  | breakHold
  deriving DecidableEq, Repr

/-- The states of message assembly (R136). -/
inductive AsmState where
  | idle
  | receiving
  | hunting
  deriving DecidableEq, Repr

/-- The message assembly and its buffer (R136). -/
structure Assembly where
  state : AsmState
  buffer : List Byte
  deriving DecidableEq, Repr

/-- Assembly in idle with its buffer empty. -/
def Assembly.idle : Assembly := ⟨.idle, []⟩

/-- Assembly hunting with its buffer empty. -/
def Assembly.hunting : Assembly := ⟨.hunting, []⟩

/-- The transmitter (R119). `finishing` is SENDING the last character of a message that a port restart cut short
(R124); it ends at TRANSMITTER_HELD. -/
inductive Transmitter where
  | idle
  | sending
  | finishing
  | held
  deriving DecidableEq, Repr

/-- The kinds of short message (R162). -/
inductive ShortKind where
  | refuse
  | canreply
  | mreply
  | notice
  deriving DecidableEq, Repr

/-- The condition of a store entry (R162). -/
inductive Condition where
  | reserved
  | ready
  | inTransmission
  deriving DecidableEq, Repr

/-- An entry of the short-reply store (R162), with the mark of a reply to RESTART (R189). -/
structure StoreEntry where
  kind : ShortKind
  condition : Condition
  tag : Byte
  body : List Byte
  reservedFor : Option SegId
  restartReply : Bool
  deriving DecidableEq, Repr

/-- An item of the outgoing queue (R158). -/
inductive Item where
  | result (i : SlotId)
  | entry (e : StoreIx)
  deriving DecidableEq, Repr

/-- The seven port counters (R132). -/
structure PortCounters where
  accepted : Count
  crcErrors : Count
  characterErrors : Count
  abandoned : Count
  noiseBytes : Count
  silentDiscards : Count
  noticesDropped : Count
  deriving DecidableEq, Repr

/-- All port counters at 0 (R132). -/
def PortCounters.zero : PortCounters := ⟨0, 0, 0, 0, 0, 0, 0⟩

/-- A host port: line format (R116), receive side (R120 to R123, R136), transmit side (R119, R158, R162, R165).
`txFrame` is the frame of which characters are being sent, empty in IDLE and HELD. The
space timer and the gap timer hold a length in units of 1/1,152,000 s (log entry 28). -/
structure Port where
  format : LineFormat
  txFormat : LineFormat
  pendingSwitch : Option PendingSwitch
  mask : BitVec 4
  hrx : Bool
  receiver : Receiver
  spaceTimer : Option Nat
  gapTimer : Option Nat
  assembly : Assembly
  tx : Transmitter
  txFrame : List Byte
  queue : List Item
  store : Vector (Option StoreEntry) 6
  noticeSeq : Byte
  counters : PortCounters
  deriving DecidableEq, Repr

/-- A port at the values of R133, R116 and R170; the level of its receive line is the one given. -/
def Port.reset (hrx : Bool) : Port where
  format := LineFormat.reset
  txFormat := LineFormat.reset
  pendingSwitch := none
  mask := 0
  hrx := hrx
  receiver := .waitMark
  spaceTimer := none
  gapTimer := none
  assembly := Assembly.idle
  tx := .idle
  txFrame := []
  queue := []
  store := Vector.replicate 6 none
  noticeSeq := 0
  counters := PortCounters.zero

/-! ## The whole part -/

/-- The state of the part. `pending` is the queue of waiting commands (log entry 1), `nextAdmission` numbers
admissions (log entry 20), and `freeCount` picks the next free value (log entries 19, 37): these three are the model's own. -/
structure State where
  pending : List Instr
  resetn : Bool
  map : Vector MapEntry 48
  slots : Vector Slot 24
  segA : Seg
  segB : Seg
  ports : Vector Port 4
  managers : PortSet
  nextAdmission : Nat
  freeCount : Nat
  deriving DecidableEq, Repr

/-- A segment right after a device reset with both lines high: the check timers and the bus-free timer have started
from the levels seen (R83, R101, R115). -/
def Seg.resetHigh : Seg :=
  { Seg.resetHeld true true with quietTimer := some 5, busFreeTimer := some 5 }

/-- The machine right after a device reset has ended with every line high (log entry 21). -/
def State.reset : State where
  pending := []
  resetn := true
  map := Vector.replicate 48 MapEntry.reset
  slots := Vector.replicate 24 Slot.cleared
  segA := Seg.resetHigh
  segB := Seg.resetHigh
  ports := Vector.replicate 4 (Port.reset true)
  managers := 1#4
  nextAdmission := 0
  freeCount := 0

end Sys2Proof.Machine
end

