-- ==== Sys2Proof/Machine/Flags.lean ====
section
/-! DEFINITION. Counters, notice-mask bits, and the codes by which states, statuses and phases stand in messages. -/
namespace Sys2Proof.Machine

/-- One added to a counter, which stays at 65535 once it reaches it (R114, R132). -/
def bump (c : Count) : Count := if c = 0xFFFF#16 then c else c + 1

/-- The four notice kinds a mask selects, and the one it does not (R153). -/
inductive NoticeKind where
  | segFault
  | segReady
  | busyLong
  | mapChanged
  | portRestarted
  deriving DecidableEq, Repr

/-- The code of a notice kind (R153). -/
def NoticeKind.code : NoticeKind → Byte
  | .segFault => 1
  | .segReady => 2
  | .busyLong => 3
  | .mapChanged => 4
  | .portRestarted => 5

/-- Whether a notice of the kind is created for a port with this mask (R156, R165): PORT_RESTARTED always is. -/
def NoticeKind.selected (mask : BitVec 4) : NoticeKind → Bool
  | .segFault => mask.getLsbD 0
  | .segReady => mask.getLsbD 1
  | .busyLong => mask.getLsbD 2
  | .mapChanged => mask.getLsbD 3
  | .portRestarted => true

/-- Membership of a port in a set of ports (R155, R171). -/
def hasPort (ps : PortSet) (p : PortId) : Bool := ps.getLsbD p.val

/-- The set that holds one port. -/
def onlyPort (p : PortId) : PortSet := 1#4 <<< p.val

/-- The set with the port made a member or removed (R171). -/
def withPort (ps : PortSet) (p : PortId) (member : Bool) : PortSet :=
  if member then ps ||| onlyPort p else ps &&& ~~~(onlyPort p)

/-- A Bool as a field byte: 0 no, 1 yes. -/
def flagByte (b : Bool) : Byte := if b then 1 else 0

/-- The code of a segment: 0 A, 1 B (R155, R156). -/
def segCode : SegId → Byte
  | .A => 0
  | .B => 1

/-- The code of a status (R150). -/
def Status.code : Status → Byte
  | .ok => 0
  | .nackaddr => 1
  | .nackdata => 2
  | .arblost => 3
  | .stretch => 4
  | .segfault => 5
  | .aborted => 6
  | .cancelled => 7
  | .expired => 8
  | .retired => 9

/-- The code of a where (R150). -/
def Where.code : Where → Byte
  | .none => 0
  | .address => 1
  | .subAddress => 2
  | .writeData => 3
  | .readData => 4
  | .stopOrRestart => 5

/-- The where code that a failure in a phase carries (R68). -/
def Phase.place : Phase → Where
  | .start => .address
  | .address => .address
  | .subAddress => .subAddress
  | .write => .writeData
  | .restart => .stopOrRestart
  | .addressRead => .address
  | .read => .readData
  | .stop => .stopOrRestart

/-- The code of a phase in the segment report (R157). -/
def Phase.code : Phase → Byte
  | .start => 1
  | .address => 2
  | .subAddress => 3
  | .write => 4
  | .restart => 5
  | .addressRead => 6
  | .read => 7
  | .stop => 8

/-- The code of an engine state in the segment report (R157). -/
def Engine.code : Engine → Byte
  | .off => 0
  | .check _ => 1
  | .idle => 2
  | .run _ => 3
  | .recover _ => 4
  | .fault => 5

/-- The phase byte of the segment report: 0 when not in RUN (R157). -/
def Engine.phaseCode : Engine → Byte
  | .run a => a.phase.code
  | _ => 0

/-- The code of a monitor state (R157). -/
def Monitor.code : Monitor → Byte
  | .busy => 0
  | .settling => 1
  | .free => 2

/-- The code of a request state in the pool report, with 8 added for an orphan (R157). -/
def Slot.code (r : Slot) : Byte :=
  (match r.state with
    | .free => 0
    | .pending => 1
    | .deferred => 2
    | .active => 3
    | .answer => 4) + (if r.orphan then 8 else 0)

/-- The reasons of a REFUSE (R151). -/
inductive Reason where
  | badver
  | badkind
  | badfmt
  | nopriv
  | notarget
  | denied
  | badsub
  | toolong
  | badop
  | duptag
  | window
  | noslot
  | segdown
  deriving DecidableEq, Repr

/-- The code of a reason (R151). -/
def Reason.code : Reason → Byte
  | .badver => 1
  | .badkind => 2
  | .badfmt => 3
  | .nopriv => 4
  | .notarget => 5
  | .denied => 6
  | .badsub => 7
  | .toolong => 8
  | .badop => 9
  | .duptag => 10
  | .window => 11
  | .noslot => 12
  | .segdown => 13

/-- The statuses of an MREPLY (R154). -/
inductive MgmtStatus where
  | done
  | badarg
  | busy
  | lastmgr
  | noeffect
  | failed
  deriving DecidableEq, Repr

/-- The code of an MREPLY status (R154). -/
def MgmtStatus.code : MgmtStatus → Byte
  | .done => 0
  | .badarg => 1
  | .busy => 2
  | .lastmgr => 3
  | .noeffect => 4
  | .failed => 5

/-- The outcomes of a CANREPLY (R152). -/
inductive CancelOutcome where
  | removed
  | tooLate
  | unknown
  deriving DecidableEq, Repr

/-- The code of a cancel outcome (R152). -/
def CancelOutcome.code : CancelOutcome → Byte
  | .removed => 0
  | .tooLate => 1
  | .unknown => 2

/-- A slot is occupied when its state is other than FREE (R23). -/
def Slot.occupied (r : Slot) : Bool := decide (r.state ≠ .free)

/-- A request is live when its slot is occupied and it is not an orphan (R24). -/
def Slot.live (r : Slot) : Bool := r.occupied && !r.orphan

/-- A request that waits in a pending list: PENDING or DEFERRED (R41). -/
def Slot.waiting (r : Slot) : Bool := decide (r.state = .pending ∨ r.state = .deferred)

end Sys2Proof.Machine
end

