-- ==== Sys2Proof/Machine/Frame.lean ====
section
/-! DEFINITION. The frame and its CRC (R134, R135), byte order, the kind bytes, and the operation codes of R154. -/
namespace Sys2Proof.Machine

/-- The high and the low byte of a 16-bit field, high byte first (00_scope.md section 7). -/
def bytes16 (n : Nat) : List Byte := [byte (n / 256), byte n]

/-- The value of two bytes, high byte first. -/
def word16 (hi lo : Byte) : Nat := hi.toNat * 256 + lo.toNat

/-- One bit taken into the CRC register (R135): shift toward the top; when the bit shifted out differs from the bit
taken, combine with 0x1021. -/
def crcBit (r : BitVec 16) (b : Bool) : BitVec 16 :=
  if r.getLsbD 15 == b then r <<< 1 else (r <<< 1) ^^^ 0x1021#16

/-- One byte taken into the CRC register, most significant bit first (R135). -/
def crcByte (r : BitVec 16) (b : Byte) : BitVec 16 :=
  [7, 6, 5, 4, 3, 2, 1, 0].foldl (fun r k => crcBit r (b.getLsbD k)) r

/-- The CRC of the covered bytes (R135): from 0xFFFF, no final inversion. -/
def crcOf (bs : List Byte) : BitVec 16 := bs.foldl crcByte 0xFFFF#16

/-- The bytes a frame's CRC covers: kind byte, tag, body length and body (R135). -/
def covered (kind tag : Byte) (body : List Byte) : List Byte := kind :: tag :: byte body.length :: body

/-- The lead byte of every frame (R134). -/
def leadByte : Byte := 0xD3#8

/-- A frame with the CRC bytes given (R134). -/
def frameWithCrc (kind tag : Byte) (body : List Byte) (crc : BitVec 16) : List Byte :=
  leadByte :: covered kind tag body ++ bytes16 crc.toNat

/-- A frame as the part composes it: the CRC is that of its covered bytes (R134, R135, R148). -/
def frameOf (kind tag : Byte) (body : List Byte) : List Byte :=
  frameWithCrc kind tag body (crcOf (covered kind tag body))

/-- The version of a kind byte, its high four bits (R134). -/
def kindVersion (kind : Byte) : Nat := kind.toNat / 16

/-- The kind code of a kind byte, its low four bits (R134). -/
def kindCode (kind : Byte) : Nat := kind.toNat % 16

/-- Whether the kind byte's version is 1 and its code names a host-to-part kind (R144 steps 1 and 2). -/
def kindAccepted (kind : Byte) : Bool :=
  kindVersion kind == 1 && (kindCode kind == 1 || kindCode kind == 2 || kindCode kind == 3)

/-- The kind bytes of version 1 (R134). -/
def kindTxn : Byte := 0x11#8
def kindCancel : Byte := 0x12#8
def kindMgmt : Byte := 0x13#8
def kindResult : Byte := 0x18#8
def kindRefuse : Byte := 0x19#8
def kindCanreply : Byte := 0x1A#8
def kindMreply : Byte := 0x1B#8
def kindNotice : Byte := 0x1C#8

/-- The operation codes of R154. -/
def opMapWrite : Byte := 0x01#8
def opMapRead : Byte := 0x02#8
def opMapRetire : Byte := 0x03#8
def opPortSet : Byte := 0x10#8
def opPortRead : Byte := 0x11#8
def opSegSet : Byte := 0x20#8
def opSegHold : Byte := 0x21#8
def opSegRelease : Byte := 0x22#8
def opSegRecover : Byte := 0x23#8
def opSegReset : Byte := 0x24#8
def opStatusRead : Byte := 0x30#8
def opRestart : Byte := 0x3F#8

/-- All operation codes of R154. -/
def mgmtOps : List Byte :=
  [opMapWrite, opMapRead, opMapRetire, opPortSet, opPortRead, opSegSet, opSegHold, opSegRelease, opSegRecover,
    opSegReset, opStatusRead, opRestart]

/-- Whether a MGMT body names an operation of R154 (R147 steps 2 and 3 pass). -/
def mgmtNamed : List Byte → Bool
  | [] => false
  | op :: _ => mgmtOps.contains op

end Sys2Proof.Machine
end

