-- ==== Sys2Proof/Machine/Operands.lean ====
section
/-! DEFINITION. The operand forms: the layouts of message bodies (R149 to R157), line times (R117), clock phases (R61),
and the bytes and phases of an attempt (R69 to R71). -/
namespace Sys2Proof.Machine

/-! ## Codes read from bytes -/

/-- The segment a byte names (R155, R156). -/
def segOf (b : Byte) : Option SegId :=
  if b = 0 then some .A else if b = 1 then some .B else none

/-- A field byte that must be 0 or 1. -/
def flagOf (b : Byte) : Option Bool :=
  if b = 0 then some false else if b = 1 then some true else none

/-- A map index byte, 0 to 47 (R155). -/
def targetOf (b : Byte) : Option TargetId :=
  if h : b.toNat < 48 then some ⟨b.toNat, h⟩ else none

/-- A port number byte, 0 to 3 (R156). -/
def portOf (b : Byte) : Option PortId :=
  if h : b.toNat < 4 then some ⟨b.toNat, h⟩ else none

/-- The operation a TXN's code names (R149). -/
def operationOf (b : Byte) : Option Operation :=
  if b = 1 then some .read
  else if b = 2 then some .write
  else if b = 3 then some .xfer
  else if b = 4 then some .probe
  else none

/-! ## The TXN body (R149) -/

/-- The optional fields of a TXN body, once check 4 has passed (R20, R26). -/
structure TxnFields where
  lifetime : Option Nat
  subAddress : Option Nat
  readLength : Option Nat
  writeData : List Byte
  deriving DecidableEq, Repr

/-- The lifetime of a TXN: present by bit 0 of the flags, 1 to 65535, with the bytes that follow it (R26, R149). -/
def takeLifetime (flags : Byte) (rest : List Byte) : Option (Option Nat × List Byte) :=
  if flags.toNat / 2 ≠ 0 then none
  else if flags.getLsbD 0 then
    match rest with
    | h :: l :: rest => if word16 h l = 0 then none else some (some (word16 h l), rest)
    | _ => none
  else some (none, rest)

/-- The sub-address of a TXN, of the entry's width, for every operation but PROBE (R8, R26, R149). -/
def takeSubAddress (op : Operation) (width : Nat) (rest : List Byte) : Option (Option Nat × List Byte) :=
  if op = .probe then some (none, rest)
  else
    match width with
    | 0 => some (none, rest)
    | 1 =>
      match rest with
      | b :: rest => some (some b.toNat, rest)
      | _ => none
    | _ =>
      match rest with
      | h :: l :: rest => some (some (word16 h l), rest)
      | _ => none

/-- The read length of a READ or an XFER, 1 to 255 in the message (R26, R149). -/
def takeReadLength (op : Operation) (rest : List Byte) : Option (Option Nat × List Byte) :=
  if op = .read ∨ op = .xfer then
    match rest with
    | b :: rest => if b = 0 then none else some (some b.toNat, rest)
    | _ => none
  else some (none, rest)

/-- Whether the bytes that remain are the write data the operation calls for (R26). -/
def writeDataFits (op : Operation) (rest : List Byte) : Bool :=
  match op with
  | .read => rest.isEmpty
  | .probe => rest.isEmpty
  | .write => !rest.isEmpty
  | .xfer => true

/-- Check 4 of admission: the fields of a TXN body after target index, operation and flags, or none when the body does
not agree with them (R26). -/
def txnFields (op : Operation) (width : Nat) (flags : Byte) (rest : List Byte) : Option TxnFields :=
  match takeLifetime flags rest with
  | none => none
  | some (lifetime, rest) =>
    match takeSubAddress op width rest with
    | none => none
    | some (sub, rest) =>
      match takeReadLength op rest with
      | none => none
      | some (len, rest) => if writeDataFits op rest then some ⟨lifetime, sub, len, rest⟩ else none

/-- The permission sets an operation needs hold the port (R10). -/
def permitted (e : MapEntry) (p : PortId) (op : Operation) (writeData : List Byte) : Bool :=
  match op with
  | .read => hasPort e.readPorts p
  | .probe => hasPort e.readPorts p
  | .write => hasPort e.writePorts p
  | .xfer => hasPort e.readPorts p && (writeData.isEmpty || hasPort e.writePorts p)

/-- The write length as the window check counts it: absent, and so 1, for an operation that carries no write data
field (R8). -/
def writeExtent (op : Operation) (writeData : List Byte) : Nat :=
  match op with
  | .read => 1
  | .probe => 1
  | .write => writeData.length
  | .xfer => writeData.length

/-- The extent of a request: the larger of its write length and its read length, an absent length counting 1 (R8). -/
def extent (op : Operation) (f : TxnFields) : Nat := max (writeExtent op f.writeData) (f.readLength.getD 1)

/-- The window check: passes when the sub-address is absent, or lies with its extent in the window (R8). -/
def inWindow (e : MapEntry) (op : Operation) (f : TxnFields) : Bool :=
  match f.subAddress with
  | none => true
  | some a => decide (e.windowLow ≤ a ∧ a + extent op f - 1 ≤ e.windowHigh)

/-- The length check: neither length is above the maximum transfer (R9). -/
def lengthsFit (e : MapEntry) (f : TxnFields) : Bool :=
  decide (f.writeData.length ≤ e.maxTransfer ∧ f.readLength.getD 0 ≤ e.maxTransfer)

/-! ## The entry record (R155, R175) -/

/-- The relations a valid entry satisfies (R3, R4, R175). -/
def MapEntry.inRange (e : MapEntry) : Bool :=
  (match e.form with
    | .sevenBit => decide (0x08 ≤ e.address ∧ e.address ≤ 0x77)
    | .tenBit => decide (e.address ≤ 1023)) &&
  decide (e.subWidth ≤ 2) &&
  (match e.subWidth with
    | 0 => true
    | 1 => decide (e.windowLow ≤ e.windowHigh ∧ e.windowHigh ≤ 255)
    | _ => decide (e.windowLow ≤ e.windowHigh ∧ e.windowHigh ≤ 65535)) &&
  decide (1 ≤ e.maxTransfer ∧ e.maxTransfer ≤ 64) &&
  decide (e.priority ≤ 3) && decide (e.retryLimit ≤ 7) &&
  decide (1 ≤ e.retryInterval ∧ e.retryInterval ≤ 255) && decide (e.slowDown ≤ 3)

/-- The address form a byte names (R155). -/
def formOf (b : Byte) : Option AddressForm :=
  if b = 0 then some .sevenBit else if b = 1 then some .tenBit else none

/-- The speed a byte names (R155). -/
def speedOf (b : Byte) : Option Speed :=
  if b = 0 then some .standard else if b = 1 then some .fast else none

/-- A set of ports in a byte whose bits 4 to 7 are zero (R155). -/
def portSetOf (b : Byte) : Option PortSet :=
  if b.toNat < 16 then some (b.setWidth 4) else none

/-- The entry a 17-byte entry record holds, made valid, or none when a value is out of its range (R155, R175). -/
def entryOfRecord : List Byte → Option MapEntry
  | [sg, fm, ah, al, w, lh, ll, hh, hl, mx, rp, wp, pr, rl, ri, sp, sd] =>
    match segOf sg, formOf fm, portSetOf rp, portSetOf wp, speedOf sp with
    | some segment, some form, some readPorts, some writePorts, some speed =>
      let e : MapEntry :=
        { valid := true, segment, form, address := word16 ah al, subWidth := w.toNat
          windowLow := word16 lh ll, windowHigh := word16 hh hl, maxTransfer := mx.toNat
          readPorts, writePorts, priority := pr.toNat, retryLimit := rl.toNat
          retryInterval := ri.toNat, speed, slowDown := sd.toNat }
      if e.inRange then some e else none
    | _, _, _, _, _ => none
  | _ => none

/-- The entry record of an entry (R155). -/
def MapEntry.record (e : MapEntry) : List Byte :=
  [segCode e.segment, flagByte (e.form = .tenBit)] ++ bytes16 e.address ++ [byte e.subWidth] ++
    bytes16 e.windowLow ++ bytes16 e.windowHigh ++
    [byte e.maxTransfer, e.readPorts.setWidth 8, e.writePorts.setWidth 8, byte e.priority, byte e.retryLimit,
      byte e.retryInterval, flagByte (e.speed = .fast), byte e.slowDown]

/-! ## The profile record (R156, R178) -/

/-- The arguments of a PORT_SET after the port number (R156). -/
structure Profile where
  format : LineFormat
  privilege : Bool
  mask : BitVec 4
  deriving DecidableEq, Repr

/-- The parity a byte names (R156). -/
def parityOf (b : Byte) : Option Parity :=
  if b = 0 then some .none else if b = 1 then some .even else if b = 2 then some .odd else none

/-- The code of a parity (R156). -/
def Parity.code : Parity → Byte
  | .none => 0
  | .even => 1
  | .odd => 2

/-- The ranges of a line format (R116, R178). -/
def LineFormat.inRange (f : LineFormat) : Bool :=
  decide (1 ≤ f.divisor ∧ f.divisor ≤ 1023) && decide (f.stopBits = 1 ∨ f.stopBits = 2) &&
  decide (2 ≤ f.gapTime ∧ f.gapTime ≤ 15) && decide (2 ≤ f.breakThreshold ∧ f.breakThreshold ≤ 15)

/-- The profile a 10-byte profile record holds, or none when a value is out of its range (R156, R178). -/
def profileOfRecord : List Byte → Option Profile
  | [dh, dl, pa, sb, po, bo, gt, bt, pv, mk] =>
    match parityOf pa, flagOf po, flagOf bo, flagOf pv, portSetOf mk with
    | some parity, some inverted, some msbFirst, some privilege, some mask =>
      let f : LineFormat :=
        { divisor := word16 dh dl, parity, stopBits := sb.toNat, inverted, msbFirst
          gapTime := gt.toNat, breakThreshold := bt.toNat }
      if f.inRange then some ⟨f, privilege, mask⟩ else none
    | _, _, _, _, _ => none
  | _ => none

/-- The line format record (R156). -/
def LineFormat.record (f : LineFormat) : List Byte :=
  bytes16 f.divisor ++ [f.parity.code, byte f.stopBits, flagByte f.inverted, flagByte f.msbFirst, byte f.gapTime,
    byte f.breakThreshold]

/-- The line format record of a pending switch, 8 zero bytes when none is recorded (R156). -/
def pendingRecord : Option PendingSwitch → List Byte
  | none => List.replicate 8 0
  | some w => w.format.record

/-! ## The setup record (R156, R180) -/

/-- The setup record that the four bytes after a SEG_SET's segment hold, or none when a value is out of range. -/
def setupOfBytes : List Byte → Option Setup
  | [en, bf, st, bl] =>
    match flagOf en with
    | some enable => if bf = 0 ∨ st = 0 then none else some ⟨enable, ⟨bf.toNat, st.toNat, bl.toNat⟩⟩
    | none => none
  | _ => none

/-! ## Line times (R117, R122, R123) -/

/-- The character time of a format in bit times: 10, 11 or 12 (R117). -/
def LineFormat.characterBits (f : LineFormat) : Nat :=
  10 + (if f.parity = .none then 0 else 1) + (if f.stopBits = 2 then 1 else 0)

/-- The character time in units of 1/1,152,000 s: a bit time is the rate divisor of them (R117). -/
def LineFormat.characterTime (f : LineFormat) : Nat := f.characterBits * f.divisor

/-- The gap timer's length (R122). -/
def LineFormat.gapLength (f : LineFormat) : Nat := f.gapTime * f.characterTime

/-- The space timer's length (R123). -/
def LineFormat.breakLength (f : LineFormat) : Nat := f.breakThreshold * f.characterTime

/-- The line level of mark: high with normal polarity, low with inverted (R118). -/
def LineFormat.markLevel (f : LineFormat) : Bool := !f.inverted

/-- Whether a line level is mark (R118). -/
def LineFormat.isMark (f : LineFormat) (level : Bool) : Bool := level == f.markLevel

/-! ## Characters (R118, R121) -/

/-- The data bits as they were sampled, a 1 for mark (R118). -/
def LineFormat.sampledBits (f : LineFormat) (c : RxChar) : Byte := if f.inverted then ~~~c.data else c.data

/-- The byte a character's data bits hold, in the port's bit order (R118, R120). -/
def LineFormat.byteOf (f : LineFormat) (c : RxChar) : Byte :=
  if f.msbFirst then (f.sampledBits c).reverse else f.sampledBits c

/-- The number of 1 bits in a byte. -/
def onesIn (b : Byte) : Nat := ([0, 1, 2, 3, 4, 5, 6, 7].filter (fun k => b.getLsbD k)).length

/-- The parity bit at mark or space that the format asks for (R118). -/
def LineFormat.parityBit (f : LineFormat) (b : Byte) : Bool :=
  match f.parity with
  | .none => true
  | .even => onesIn b % 2 == 1
  | .odd => onesIn b % 2 == 0

/-- The parity bit of a received character agrees with its data bits; with no parity there is none to disagree. -/
def LineFormat.parityAgrees (f : LineFormat) (c : RxChar) : Bool :=
  decide (f.parity = .none) || f.isMark c.parity == f.parityBit (f.sampledBits c)

/-- Every stop bit of the format is at mark. -/
def LineFormat.stopsAtMark (f : LineFormat) (c : RxChar) : Bool :=
  f.isMark c.stop1 && (decide (f.stopBits ≠ 2) || f.isMark c.stop2)

/-- The judgement of a character (R121). -/
inductive Judgement where
  | good (b : Byte)
  | error
  | candidate
  deriving DecidableEq, Repr

/-- Whether a character is a break candidate: every data bit 0, any parity bit at space, the first stop bit at space
(R121). -/
def LineFormat.isCandidate (f : LineFormat) (c : RxChar) : Bool :=
  decide (f.sampledBits c = 0) && (decide (f.parity = .none) || !f.isMark c.parity) && !f.isMark c.stop1

/-- The judgement of a character at its end (R121). -/
def LineFormat.judge (f : LineFormat) (c : RxChar) : Judgement :=
  if f.isCandidate c then .candidate
  else if f.stopsAtMark c && f.parityAgrees c then .good (f.byteOf c)
  else .error

/-! ## Clock phases (R61) -/

/-- The low phase in sixteenths of a microsecond (R61). -/
def lowPhase (sp : Speed) (slow : Nat) : Nat :=
  match sp with
  | .standard => 11 * (8 + slow)
  | .fast => 3 * (8 + slow)

/-- The high phase in sixteenths of a microsecond (R61). -/
def highPhase (sp : Speed) (slow : Nat) : Nat :=
  match sp with
  | .standard => 9 * (8 + slow)
  | .fast => 2 * (8 + slow)

/-! ## The bytes and phases of an attempt (R69 to R72) -/

/-- The address bytes of a phase (R69). -/
def addressBytes (form : AddressForm) (address : Nat) (read : Bool) : List Byte :=
  match form with
  | .sevenBit => [byte (address * 2 + read.toNat)]
  | .tenBit =>
    if read then [byte (0xF0 + address / 256 * 2 + 1)]
    else [byte (0xF0 + address / 256 * 2), byte (address % 256)]

/-- The sub-address bytes of a request: one for width 1, two for width 2, high byte first (R71). -/
def subAddressBytes (width : Nat) : Option Nat → List Byte
  | none => []
  | some a => if width = 1 then [byte a] else bytes16 a

/-- The bytes the engine sends in a phase (R69, R71). -/
def Slot.phaseBytes (r : Slot) : Phase → List Byte
  | .address => addressBytes r.snapshot.form r.snapshot.address false
  | .addressRead => addressBytes r.snapshot.form r.snapshot.address true
  | .subAddress => subAddressBytes r.snapshot.subWidth r.subAddress
  | .write => r.writeData
  | .start => []
  | .restart => []
  | .read => []
  | .stop => []

/-- The phases between START and STOP (R70). -/
def Slot.middlePhases (r : Slot) : List Phase :=
  let sub : List Phase := if r.subAddress.isSome then [.subAddress] else []
  match r.operation with
  | .read =>
    if r.subAddress.isSome ∨ r.snapshot.form = .tenBit then [.address] ++ sub ++ [.restart, .addressRead, .read]
    else [.addressRead, .read]
  | .write => [.address] ++ sub ++ [.write]
  | .xfer =>
    [.address] ++ sub ++ (if r.writeData.isEmpty then [] else [.write]) ++ [.restart, .addressRead, .read]
  | .probe => [.address]

/-- The whole phase sequence of an attempt (R70). -/
def Slot.phases (r : Slot) : List Phase := [.start] ++ r.middlePhases ++ [.stop]

/-- The phase that follows `ph` in a sequence; STOP where none does. -/
def phaseAfter (ph : Phase) : List Phase → Phase
  | [] => .stop
  | x :: rest => if x = ph then rest.headD .stop else phaseAfter ph rest

/-- The phase that follows `ph` in the request's attempt (R68, R70). -/
def Slot.nextPhase (r : Slot) (ph : Phase) : Phase := phaseAfter ph r.phases

/-! ## Bodies of short messages and results (R150 to R154) -/

/-- The body of a RESULT (R150). -/
def resultBody (res : Result) (attempts : Nat) : List Byte :=
  [res.status.code, res.place.code, byte res.written, byte attempts] ++ res.readData

/-- The RESULT frame of a slot (R148, R150); a slot without a result has no frame. -/
def Slot.resultFrame (r : Slot) : List Byte :=
  match r.result with
  | some res => frameOf kindResult r.tag (resultBody res r.attempts)
  | none => []

/-- The kind byte of a short message (R134). -/
def ShortKind.kindByte : ShortKind → Byte
  | .refuse => kindRefuse
  | .canreply => kindCanreply
  | .mreply => kindMreply
  | .notice => kindNotice

/-- The frame of a composed store entry (R148). -/
def StoreEntry.frame (e : StoreEntry) : List Byte := frameOf e.kind.kindByte e.tag e.body

/-- The bytes of the seven port counters (R157). -/
def PortCounters.bytes (c : PortCounters) : List Byte :=
  [c.accepted, c.crcErrors, c.characterErrors, c.abandoned, c.noiseBytes, c.silentDiscards,
    c.noticesDropped].flatMap (fun n => bytes16 n.toNat)

/-- The bytes of the seven segment counters (R157). -/
def SegCounters.bytes (c : SegCounters) : List Byte :=
  [c.transactionsOk, c.addressNacks, c.dataNacks, c.arbitrationLosses, c.stretchTimeouts, c.recoveries,
    c.busyLongEvents].flatMap (fun n => bytes16 n.toNat)

end Sys2Proof.Machine
end

