-- ==== Sys2Proof/Machine/Ops.lean ====
section
/-! DEFINITION. The shared operations: access to the blocks of the state, the outgoing side (R158 to R169), the slot
pool and the schedulers (R22 to R54). -/
namespace Sys2Proof.Machine

/-! ## Access -/

/-- The four ports in order. -/
def allPorts : List PortId := [0, 1, 2, 3]

/-- The six store entries in order. -/
def allEntries : List StoreIx := [0, 1, 2, 3, 4, 5]

/-- The 24 slots in order. -/
def allSlots : List SlotId :=
  [0, 1, 2, 3, 4, 5, 6, 7, 8, 9, 10, 11, 12, 13, 14, 15, 16, 17, 18, 19, 20, 21, 22, 23]

/-- A port of the state. -/
def State.port (s : State) (p : PortId) : Port := s.ports[p]

/-- The state with one port replaced. -/
def State.setPort (s : State) (p : PortId) (v : Port) : State := { s with ports := s.ports.set p.val v p.isLt }

/-- The state with one port changed by `f`. -/
def State.modPort (s : State) (p : PortId) (f : Port → Port) : State := s.setPort p (f (s.port p))

/-- A slot of the pool. -/
def State.slot (s : State) (i : SlotId) : Slot := s.slots[i]

/-- The state with one slot replaced. -/
def State.setSlot (s : State) (i : SlotId) (r : Slot) : State := { s with slots := s.slots.set i.val r i.isLt }

/-- The state with one slot changed by `f`. -/
def State.modSlot (s : State) (i : SlotId) (f : Slot → Slot) : State := s.setSlot i (f (s.slot i))

/-- A segment of the state. -/
def State.seg (s : State) : SegId → Seg
  | .A => s.segA
  | .B => s.segB

/-- The state with one segment replaced. -/
def State.setSeg (s : State) (g : SegId) (v : Seg) : State :=
  match g with
  | .A => { s with segA := v }
  | .B => { s with segB := v }

/-- A map entry of the state. -/
def State.mapEntry (s : State) (t : TargetId) : MapEntry := s.map[t]

/-- The state with one map entry replaced. -/
def State.setMapEntry (s : State) (t : TargetId) (e : MapEntry) : State :=
  { s with map := s.map.set t.val e t.isLt }

/-! ## Timers that levels and states drive -/

/-- A timer that runs while a condition holds: it starts from its full length when the condition comes to hold, stops
when it ceases to hold, and else is left as it is (R96, R101). -/
def timerEdge (was is : Bool) (now : Option Nat) (length : Nat) : Option Nat :=
  if is then (if was then now else some length) else none

/-- The engine is in CHECK and makes no closing stop, so that its check timers follow the lines (log entry 16). -/
def Seg.observing (v : Seg) : Bool := decide (v.engine = .check false)

/-- The quiet timer runs: CHECK, both lines high (R101). -/
def Seg.quietCond (v : Seg) : Bool := v.observing && v.scl && v.sda

/-- The data-held timer runs: CHECK, data low, clock high (R101). -/
def Seg.dataHeldCond (v : Seg) : Bool := v.observing && v.scl && !v.sda

/-- The clock-held timer runs: CHECK, clock low (R101). -/
def Seg.clockHeldCond (v : Seg) : Bool := v.observing && !v.scl

/-- The engine is in RUN. -/
def Engine.isRun : Engine → Bool
  | .run _ => true
  | _ => false

/-- The busy-long timer runs: monitor BUSY, engine not in RUN, limit not 0 (R96). -/
def Seg.busyLongCond (v : Seg) : Bool :=
  decide (v.monitor = .busy) && !v.engine.isRun && decide (v.inForce.busyLongLimit ≠ 0)

/-- The segment `new` that follows `old`, with the check timers (R101) and the busy-long timer (R96) started or
stopped as their conditions came to hold or ceased to. -/
def Seg.retime (old new : Seg) : Seg :=
  { new with
    quietTimer := timerEdge old.quietCond new.quietCond new.quietTimer new.inForce.busFreeWait
    dataHeldTimer := timerEdge old.dataHeldCond new.dataHeldCond new.dataHeldTimer Config.dataHeldMs
    clockHeldTimer := timerEdge old.clockHeldCond new.clockHeldCond new.clockHeldTimer new.inForce.stretchTimeout
    busyLongTimer := timerEdge old.busyLongCond new.busyLongCond new.busyLongTimer new.inForce.busyLongLimit }

/-- The state with one segment changed by `f`, its timers following. -/
def State.modSeg (s : State) (g : SegId) (f : Seg → Seg) : State := s.setSeg g ((s.seg g).retime (f (s.seg g)))

/-! ## The outgoing side (R158 to R166) -/

/-- The frame of a queue item, composed at the moment it is given to the transmitter (R148, R160). -/
def State.itemFrame (s : State) (p : PortId) : Item → List Byte
  | .result i => (s.slot i).resultFrame
  | .entry e => ((s.port p).store[e].map StoreEntry.frame).getD []

/-- The port with a store entry replaced. -/
def Port.setEntry (v : Port) (e : StoreIx) (x : Option StoreEntry) : Port :=
  { v with store := v.store.set e.val x e.isLt }

/-- The port with the entry of a queue item marked as in transmission (R162). -/
def Port.markSending (v : Port) : Item → Port
  | .result _ => v
  | .entry e => v.setEntry e (v.store[e].map fun x => { x with condition := .inTransmission })

/-- An IDLE transmitter takes up the head of a queue that is not empty (R160). -/
def State.give (s : State) (p : PortId) : State :=
  match (s.port p).tx, (s.port p).queue with
  | .idle, item :: _ =>
    s.setPort p { (s.port p).markSending item with tx := .sending, txFrame := s.itemFrame p item }
  | _, _ => s

/-- An item becomes ready: it joins the tail of the queue (R159), and an IDLE transmitter takes it up. -/
def State.enqueue (s : State) (p : PortId) (item : Item) : State :=
  (s.modPort p fun v => { v with queue := v.queue ++ [item] }).give p

/-- The lowest store entry that is not occupied (log entry 30). -/
def Port.freeEntry (v : Port) : Option StoreIx := allEntries.find? fun e => v.store[e].isNone

/-- Whether a store entry holds a ready NOTICE (R163). -/
def Port.readyNotice (v : Port) (e : StoreIx) : Bool :=
  match v.store[e] with
  | some x => decide (x.kind = .notice ∧ x.condition = .ready)
  | none => false

/-- The oldest ready NOTICE entry, the first in queue order (R163). -/
def Port.oldestNotice (v : Port) : Option StoreIx :=
  v.queue.findSome? fun item =>
    match item with
    | .entry e => if v.readyNotice e then some e else none
    | .result _ => none

/-- A NOTICE is dropped: its entry leaves the store, its item the queue, and the drop is counted (R163). -/
def Port.dropNotice (v : Port) (e : StoreIx) : Port :=
  { v.setEntry e none with
    queue := v.queue.filter fun item => decide (item ≠ .entry e)
    counters := { v.counters with noticesDropped := bump v.counters.noticesDropped } }

/-- Room for a short message: a free entry, or that of the oldest ready NOTICE, dropped (R163, R165). -/
def Port.room (v : Port) : Option (StoreIx × Port) :=
  match v.freeEntry with
  | some e => some (e, v)
  | none =>
    match v.oldestNotice with
    | some e => some (e, v.dropNotice e)
    | none => none

/-- A reserved entry for a reply of the given kind (R162, R163). Frame tag and body are fixed when the message is composed;
until then the entry holds tag 0 and an empty body, placeholders that nothing reads (DESIGN CHOICE, log entry 35). -/
def StoreEntry.reserve (kind : ShortKind) : StoreEntry := ⟨kind, .reserved, 0, [], none, false⟩

/-- One silent discard counted (R163). -/
def Port.countSilent (v : Port) : Port :=
  { v with counters := { v.counters with silentDiscards := bump v.counters.silentDiscards } }

/-- The gate (R163): with room, the entry is reserved and the handling goes on; with none, the host message is
discarded and the discard counted. -/
def State.gate (s : State) (p : PortId) (kind : ShortKind) (k : StoreIx → State → State) : State :=
  match (s.port p).room with
  | some (e, v) => k e (s.setPort p (v.setEntry e (some (StoreEntry.reserve kind))))
  | none => s.modPort p Port.countSilent

/-- A short message is composed into an entry and becomes ready (R159, R162). -/
def State.compose (s : State) (p : PortId) (e : StoreIx) (x : StoreEntry) : State :=
  (s.modPort p fun v => v.setEntry e (some x)).enqueue p (.entry e)

/-- A REFUSE: the reason and the refused message's kind byte, under its tag (R148, R151). -/
def State.refuse (s : State) (p : PortId) (e : StoreIx) (reason : Reason) (kind tag : Byte) : State :=
  s.compose p e ⟨.refuse, .ready, tag, [reason.code, kind], none, false⟩

/-- A refusal that passes the gate when it is composed (R27, R144). -/
def State.gatedRefuse (s : State) (p : PortId) (reason : Reason) (kind tag : Byte) : State :=
  s.gate p .refuse fun e s => s.refuse p e reason kind tag

/-- An MREPLY: operation code, status and, for DONE, the reply data (R154, R173). -/
def State.mreply (s : State) (p : PortId) (e : StoreIx) (tag op : Byte) (status : MgmtStatus)
    (reply : List Byte) : State :=
  s.compose p e ⟨.mreply, .ready, tag, op :: status.code :: reply, none, false⟩

/-- A notice is created for a port (R165): it takes the sequence number as its tag, and enters the store, displaces
the oldest ready NOTICE, or is dropped and counted. -/
def State.notice (s : State) (p : PortId) (kind : NoticeKind) (arg : Byte) : State :=
  let tag := (s.port p).noticeSeq
  let s := s.modPort p fun v => { v with noticeSeq := v.noticeSeq + 1 }
  match (s.port p).room with
  | some (e, v) => (s.setPort p v).compose p e ⟨.notice, .ready, tag, [kind.code, arg], none, false⟩
  | none =>
    s.modPort p fun v =>
      { v with counters := { v.counters with noticesDropped := bump v.counters.noticesDropped } }

/-- A notice for a port when its mask selects the kind (R165). -/
def State.noticeIf (s : State) (p : PortId) (kind : NoticeKind) (arg : Byte) : State :=
  if kind.selected (s.port p).mask then s.notice p kind arg else s

/-- One notice for each port of a list whose mask selects the kind (R18, R97, R103, R107). -/
def State.noticeTo (s : State) (ps : List PortId) (kind : NoticeKind) (arg : Byte) : State :=
  ps.foldl (fun s p => s.noticeIf p kind arg) s

/-! ## The slot pool (R22 to R40) -/

/-- The lowest-numbered FREE slot (R22). -/
def State.freeSlot (s : State) : Option SlotId := allSlots.find? fun i => decide ((s.slot i).state = .free)

/-- The number of slots a port occupies (R23). -/
def State.occupied (s : State) (p : PortId) : Nat :=
  (allSlots.filter fun i => (s.slot i).occupied && decide ((s.slot i).owner = p)).length

/-- The live request of a port with a tag, if there is one (R24). -/
def State.liveTag (s : State) (p : PortId) (tag : Byte) : Option SlotId :=
  allSlots.find? fun i => (s.slot i).live && decide ((s.slot i).owner = p) && decide ((s.slot i).tag = tag)

/-- A slot returns to FREE with its record cleared (R22). -/
def State.releaseSlot (s : State) (i : SlotId) : State := s.setSlot i Slot.cleared

/-- A request enters ANSWER with its result: its timers stop, and its slot joins its owner's outgoing queue (R21, R31,
R36). -/
def State.answer (s : State) (i : SlotId) (res : Result) : State :=
  (s.modSlot i fun r =>
    { r with state := .answer, result := some res, lifetimeTimer := none, retryTimer := none }).enqueue
    (s.slot i).owner (.result i)

/-- The result a scheduler writes for a request that is not running (R21, R36). -/
def Result.ofScheduler (status : Status) : Result := ⟨status, .none, 0, []⟩

/-- A request leaves its segment's pending list (R42). -/
def State.unlist (s : State) (i : SlotId) : State :=
  let g := (s.slot i).snapshot.segment
  s.setSeg g { s.seg g with list := (s.seg g).list.filter fun j => decide (j ≠ i) }

/-- A waiting request is removed from its list and answered by its scheduler (R36). -/
def State.withdraw (s : State) (i : SlotId) (status : Status) : State :=
  (s.unlist i).answer i (Result.ofScheduler status)

/-- A slot placed in a list by its admission number: behind every older request, ahead of every younger (R32, R41). -/
def placeByAge (age : SlotId → Nat) (i : SlotId) : List SlotId → List SlotId
  | [] => [i]
  | j :: rest => if age i < age j then i :: j :: rest else j :: placeByAge age i rest

/-- A request rejoins the pending list of its snapshot segment at its place (R32, R33, R41). -/
def State.rejoin (s : State) (i : SlotId) : State :=
  let g := (s.slot i).snapshot.segment
  s.setSeg g { s.seg g with list := placeByAge (fun j => (s.slot j).admission) i (s.seg g).list }

/-- The two lists of slots in one order that keeps each list's own: where both have a next one, a free value says which
comes first, and the count of free values used goes up (R17; log entry 19). The first argument bounds the recursion; the
sum of the lengths is enough. -/
def mergeFree : Nat → List SlotId → List SlotId → Nat → List SlotId × Nat
  | 0, xs, ys, n => (xs ++ ys, n)
  | _ + 1, [], ys, n => (ys, n)
  | _ + 1, xs, [], n => (xs, n)
  | k + 1, x :: xs, y :: ys, n =>
    if Config.freeChoice n then
      (x :: (mergeFree k xs (y :: ys) (n + 1)).1, (mergeFree k xs (y :: ys) (n + 1)).2)
    else (y :: (mergeFree k (x :: xs) ys (n + 1)).1, (mergeFree k (x :: xs) ys (n + 1)).2)

/-- The waiting requests of a target in one segment's list, in list order (R53). -/
def State.purgeable (s : State) (g : SegId) (t : TargetId) : List SlotId :=
  (s.seg g).list.filter fun i => (s.slot i).waiting && decide ((s.slot i).target = t.val)

/-- The slots that a purge of a target removes, in the order their results become ready, and the free-value count
after it (R17, R53). -/
def State.purgeOrder (s : State) (t : TargetId) : List SlotId × Nat :=
  mergeFree ((s.purgeable .A t).length + (s.purgeable .B t).length) (s.purgeable .A t) (s.purgeable .B t) s.freeCount

/-- A purge: every waiting request of the target is answered RETIRED (R17, R53). -/
def State.purge (s : State) (t : TargetId) : State :=
  (s.purgeOrder t).1.foldl (fun s i => s.withdraw i .retired) { s with freeCount := (s.purgeOrder t).2 }

/-! ## Eligibility and the arbiter (R43 to R46) -/

/-- Some older request of the list has the same owner and target: the ordering chain (R43). `older` are the requests
ahead in the list. -/
def State.chained (s : State) (older : List SlotId) (i : SlotId) : Bool :=
  older.any fun j => decide ((s.slot j).owner = (s.slot i).owner ∧ (s.slot j).target = (s.slot i).target)

/-- The requests of a list that its chains and states let be eligible, oldest first; `older` are those already
passed (R43). The held flag is judged beside it. -/
def State.eligibleFrom (s : State) (older : List SlotId) : List SlotId → List SlotId
  | [] => []
  | i :: rest =>
    if (s.slot i).state = .pending ∧ s.chained older i = false then i :: s.eligibleFrom (older ++ [i]) rest
    else s.eligibleFrom (older ++ [i]) rest

/-- The eligible requests of a segment, oldest first (R43). -/
def State.eligible (s : State) (g : SegId) : List SlotId :=
  if (s.seg g).held then [] else s.eligibleFrom [] (s.seg g).list

/-- The effective priority of a request (R45). -/
def Slot.effectivePriority (r : Slot) : Nat :=
  if Config.promotion ≤ r.passedOver then Config.promotedPriority else r.snapshot.priority

/-- The request of highest effective priority, the oldest of those; `best` is the best so far (R45). -/
def State.bestFrom (s : State) (best : SlotId) : List SlotId → SlotId
  | [] => best
  | i :: rest =>
    if (s.slot best).effectivePriority < (s.slot i).effectivePriority then s.bestFrom i rest
    else s.bestFrom best rest

/-- The request the arbiter takes: none when no request is eligible (R44, R45). -/
def State.best (s : State) (g : SegId) : Option SlotId :=
  match s.eligible g with
  | [] => none
  | i :: rest => some (s.bestFrom i rest)

/-- One more choice passed a request over; the count stops at 4 (R46). -/
def Slot.passOver (r : Slot) : Slot :=
  { r with passedOver := if r.passedOver < Config.promotion then r.passedOver + 1 else r.passedOver }

/-- The eligible requests older than the chosen one (R46). -/
def State.passed (s : State) (g : SegId) (i : SlotId) : List SlotId :=
  (s.eligible g).takeWhile fun j => decide (j ≠ i)

/-! ## What every command does first -/

/-- While RESETN is low nothing but the end of the reset changes the part (R115, R133; log entry 22). -/
def State.running (s : State) (f : State → State) : Host.Outcome State Fault Refusal :=
  if s.resetn then .next (f s) else .next s

end Sys2Proof.Machine
end

