-- ==== Sys2Proof/Machine/Bus.lean ====
section
/-! DEFINITION. The shared operations of a segment: the bus monitor (R83 to R86), the entries into CHECK, IDLE, RECOVER
and FAULT (R100 to R107), and the end of an attempt (R31 to R34, R38, R77). -/
namespace Sys2Proof.Machine

/-! ## The bus monitor -/

/-- The levels of the two lines as they are now seen (log entry 9). -/
def Seg.see (v : Seg) (scl sda : Bool) : Seg := { v with scl := scl, sda := sda }

/-- The monitor sees a start (R84): a repeated start in BUSY changes nothing; else BUSY is entered. -/
def Seg.monitorStart (v : Seg) : Seg :=
  match v.monitor with
  | .busy => v
  | .free => { v with monitor := .busy, busyLongReported := false }
  | .settling => { v with monitor := .busy, busFreeTimer := none, busyLongReported := false }

/-- The monitor sees a stop in BUSY or SETTLING (R84): SETTLING, with the bus-free timer from its full length; any stop
clears stop owed (R99). In FREE a stop cannot occur. -/
def Seg.monitorStop (v : Seg) : Seg :=
  match v.monitor with
  | .free => v
  | .busy => { v with monitor := .settling, busFreeTimer := some v.inForce.busFreeWait, stopOwed := false }
  | .settling => { v with busFreeTimer := some v.inForce.busFreeWait, stopOwed := false }

/-- The monitor sees a line low that is no part of a start (R84). -/
def Seg.monitorLow (v : Seg) : Seg :=
  match v.monitor with
  | .busy => v
  | .free => { v with monitor := .settling, busFreeTimer := none }
  | .settling => { v with busFreeTimer := none }

/-- A line is now seen low at a moment that is no part of a start (R84). -/
def Seg.seeLow (v : Seg) (scl sda : Bool) : Seg := (v.see scl sda).monitorLow

/-- The engine's own stop completes (R64, R102, R106): it held the lines low before, both are now high, and the monitor
sees the stop as any master's. -/
def Seg.ownStop (v : Seg) : Seg := (v.monitorLow.see true true).monitorStop

/-- Both lines come to be seen high: in SETTLING a stopped bus-free timer starts from its full length (R84, R85). -/
def Seg.monitorHigh (v : Seg) : Seg :=
  match v.monitor, v.busFreeTimer with
  | .settling, none => { v with busFreeTimer := some v.inForce.busFreeWait }
  | _, _ => v

/-! ## Entries into engine states -/

/-- The check timers started afresh from the levels seen (R100, R101). -/
def Seg.startCheckTimers (v : Seg) : Seg :=
  { v with
    quietTimer := if v.scl && v.sda then some v.inForce.busFreeWait else none
    dataHeldTimer := if v.scl && !v.sda then some Config.dataHeldMs else none
    clockHeldTimer := if v.scl then none else some v.inForce.stretchTimeout }

/-- Entry into CHECK (R86, R100): lines released, in-force timing replaced, check timers started afresh. -/
def Seg.enterCheck (v : Seg) : Seg :=
  ({ v with engine := .check false, inForce := v.setup.timing } : Seg).startCheckTimers

/-- Entry into RECOVER (R104): the pulse count is 0, a recovery is counted, and the first release pulse begins, which
the monitor sees as a line low. -/
def Seg.enterRecover (v : Seg) : Seg :=
  ({ v with
    engine := .recover false
    pulseCount := 0
    counters := { v.counters with recoveries := bump v.counters.recoveries } } : Seg).seeLow false v.sda

/-- The entry of the asking port's store that is reserved for the segment's recovery (R162, R164). -/
def Port.reservedEntry (v : Port) (g : SegId) : Option StoreIx :=
  allEntries.find? fun e =>
    match v.store[e] with
    | some x => decide (x.condition = .reserved ∧ x.reservedFor = some g)
    | none => false

/-- The outstanding recovery, if any, is answered in its reserved entry and cleared (R103, R107, R111, R164). -/
def State.answerRecovery (s : State) (g : SegId) (status : MgmtStatus) : State :=
  match (s.seg g).recovery with
  | none => s
  | some r =>
    let s' := s.setSeg g { s.seg g with recovery := none }
    match (s.port r.port).reservedEntry g with
    | some e => s'.mreply r.port e r.tag opSegRecover status []
    | none => s'

/-- Entry into IDLE from CHECK (R103): the recovery answered DONE, then, with ready owed, SEG_READY notices. -/
def State.enterIdle (s : State) (g : SegId) : State :=
  let s := (s.modSeg g fun v => { v with engine := .idle }).answerRecovery g .done
  if (s.seg g).readyOwed then
    (s.setSeg g { s.seg g with readyOwed := false }).noticeTo allPorts .segReady (segCode g)
  else s

/-- Every request of a segment's list is answered SEGFAULT in list order (R54). -/
def State.failList (s : State) (g : SegId) : State :=
  (s.seg g).list.foldl (fun s i => s.withdraw i .segfault) s

/-- Entry into FAULT (R54, R107): ready owed set; the list answered SEGFAULT; the recovery answered FAILED; SEG_FAULT
notices. -/
def State.enterFault (s : State) (g : SegId) : State :=
  (((s.modSeg g fun v => { v with engine := .fault, readyOwed := true }).failList g).answerRecovery g
    .failed).noticeTo allPorts .segFault (segCode g)

/-! ## The end of an attempt -/

/-- The segment counter of a failure's kind goes up; ABORTED has none (R76, R77). -/
def SegCounters.countFail (c : SegCounters) : FailKind → SegCounters
  | .addressNack => { c with addressNacks := bump c.addressNacks }
  | .dataNack => { c with dataNacks := bump c.dataNacks }
  | .arbitrationLost => { c with arbitrationLosses := bump c.arbitrationLosses }
  | .stretchTimeout => { c with stretchTimeouts := bump c.stretchTimeouts }
  | .aborted => c

/-- A request about to return to its list (R34): with its deadline passed it is answered EXPIRED; else it takes the
state and the retry timer given and rejoins its list at its place. -/
def State.goBack (s : State) (i : SlotId) (st : RequestState) (timer : Option Nat) : State :=
  if (s.slot i).deadlinePassed then s.answer i (Result.ofScheduler .expired)
  else (s.modSlot i fun r => { r with state := st, retryTimer := timer }).rejoin i

/-- The fate of a request whose attempt ended with its address not acknowledged (R31, R32, R74). -/
def State.afterAddressNack (s : State) (i : SlotId) (f : Failure) (written : Nat) : State :=
  let r := s.slot i
  if r.operation = .probe ∨ r.snapshot.retryLimit ≤ r.retriesUsed then
    s.answer i ⟨.nackaddr, f.place, written, []⟩
  else
    (s.modSlot i fun r => { r with retriesUsed := r.retriesUsed + 1 }).goBack i .deferred
      (some r.snapshot.retryInterval)

/-- The fate of a request whose attempt ended with arbitration lost (R31, R33, R92). -/
def State.afterLoss (s : State) (i : SlotId) (f : Failure) (written : Nat) : State :=
  let s := s.modSlot i fun r => { r with losses := r.losses + 1 }
  if Config.lossLimit ≤ (s.slot i).losses then s.answer i ⟨.arblost, f.place, written, []⟩
  else s.goBack i .pending none

/-- What the pool does with a request that is not an orphan when its attempt ends with a first failure (R31 to R34). -/
def State.afterFailure (s : State) (i : SlotId) (f : Failure) (written : Nat) : State :=
  match f.kind with
  | .addressNack => s.afterAddressNack i f written
  | .arbitrationLost => s.afterLoss i f written
  | .dataNack => s.answer i ⟨.nackdata, f.place, written, []⟩
  | .stretchTimeout => s.answer i ⟨.stretch, f.place, written, []⟩
  | .aborted => s.answer i ⟨.aborted, f.place, written, []⟩

/-- What the pool does when an attempt ends (R31, R38): an orphan's slot is freed, any other request is answered or
returns to its list. `none` is an attempt that ends OK. -/
def State.settle (s : State) (a : Attempt) (f : Option Failure) : State :=
  if (s.slot a.slot).orphan then s.releaseSlot a.slot
  else
    match f with
    | none => s.answer a.slot ⟨.ok, .none, a.written, a.readData⟩
    | some f => s.afterFailure a.slot f a.written

/-- The counters of the outcome: OK or the first failure, and the second failure if there was one (R76, R77). -/
def SegCounters.countEnd (c : SegCounters) (first : Option Failure) (second : Option FailKind) : SegCounters :=
  let c := match first with
    | none => { c with transactionsOk := bump c.transactionsOk }
    | some f => c.countFail f.kind
  match second with
  | none => c
  | some k => c.countFail k

/-- The engine leaves RUN (R77): the outcome counted, then IDLE, or CHECK with stop owed set when the attempt left its
transfer open (R100). -/
def Seg.leaveRun (v : Seg) (first : Option Failure) (second : Option FailKind) (toCheck openTransfer : Bool) : Seg :=
  let v := { v with
    counters := v.counters.countEnd first second
    stopOwed := v.stopOwed || openTransfer }
  if toCheck then v.enterCheck else { v with engine := .idle }

/-- An attempt ends (R77): the pool takes the request's transition, then the engine leaves RUN. -/
def State.endAttempt (s : State) (g : SegId) (a : Attempt) (first : Option Failure) (second : Option FailKind)
    (toCheck openTransfer : Bool) : State :=
  (s.settle a first).modSeg g fun v => v.leaveRun first second toCheck openTransfer

/-- An attempt that follows after a loss ends with that loss (R89, R90). -/
def State.endFollowing (s : State) (g : SegId) (a : Attempt) : State := s.endAttempt g a a.failure none false false

/-- The monitor has left FREE before the opening start was issued: a loss of arbitration in START (R87). -/
def State.lossInStart (s : State) (g : SegId) (a : Attempt) : State :=
  s.endAttempt g a (some ⟨.arbitrationLost, .address⟩) none false false

/-- What a running attempt makes of the monitor leaving FREE: in START, before the opening start, a loss (R87). -/
def State.meetStart (s : State) (g : SegId) : State :=
  match (s.seg g).engine with
  | .run a => if a.timing = none ∧ (s.seg g).monitor ≠ .free then s.lossInStart g a else s
  | _ => s

/-- What a running attempt makes of a start or a stop seen on the wire: it ends the following after a loss (R89). -/
def State.meetCondition (s : State) (g : SegId) : State :=
  match (s.seg g).engine with
  | .run a => if a.following then s.endFollowing g a else s
  | _ => s

/-! ## Restart values -/

/-- A segment at its restart values with its timers started from the levels it sees (R83, R115). -/
def Seg.restarted (l : Levels) : Seg :=
  let v := (Seg.resetHeld l.clock l.data).startCheckTimers
  if l.clock && l.data then { v with busFreeTimer := some v.inForce.busFreeWait } else v

/-- The values every block takes at device reset (R5, R40, R59, R115, R133, R170, R171), with no timer running. The
waiting commands, the levels of the input lines and the free-value count are not the part's to reset. -/
def State.inReset (s : State) : State :=
  { s with
    resetn := false
    map := Vector.replicate 48 MapEntry.reset
    slots := Vector.replicate 24 Slot.cleared
    segA := Seg.resetHeld s.segA.scl s.segA.sda
    segB := Seg.resetHeld s.segB.scl s.segB.sda
    ports := #v[Port.reset (s.port 0).hrx, Port.reset (s.port 1).hrx, Port.reset (s.port 2).hrx,
      Port.reset (s.port 3).hrx]
    managers := 1#4
    nextAdmission := 0 }

/-- The values of a part that starts (R190): those of a reset, with RESETN high and the segments' timers started from
the levels they see. -/
def State.started (s : State) (a b : Levels) : State :=
  { s.inReset with resetn := true, segA := Seg.restarted a, segB := Seg.restarted b }

/-- A general restart begins (R189, R190). -/
def State.generalRestart (s : State) : State :=
  s.started ⟨s.segA.scl, s.segA.sda⟩ ⟨s.segB.scl, s.segB.sda⟩

end Sys2Proof.Machine
end

