-- ==== Sys2Proof/Machine/Health.lean ====
section
/-! DEFINITION. The commands of an engine that checks or recovers its bus (R99 to R107). -/
namespace Sys2Proof.Machine

/-! ## CHECK -/

/-- The closing stop begins: the engine drives its lines low, and the monitor sees a line low (R102). -/
def Seg.beginClosing (v : Seg) : Seg :=
  ({ v with engine := .check true } : Seg).seeLow false false

/-- QUIET_TIMER_EXPIRY: IDLE, or a closing stop when a stop is owed (R101 to R103). -/
def execQuietTimerExpiry (g : SegId) (s : State) : Host.Outcome State Fault Refusal :=
  s.running fun s =>
    if (s.seg g).quietTimer.isSome then
      if (s.seg g).stopOwed then s.modSeg g Seg.beginClosing else s.enterIdle g
    else s

/-- DATA_HELD_TIMER_EXPIRY: ready owed is set and the engine enters RECOVER (R101, R104). -/
def execDataHeldTimerExpiry (g : SegId) (s : State) : Host.Outcome State Fault Refusal :=
  s.running fun s =>
    if (s.seg g).dataHeldTimer.isSome then
      s.modSeg g fun v => ({ v with readyOwed := true } : Seg).enterRecover
    else s

/-- CLOCK_HELD_TIMER_EXPIRY: the engine enters FAULT (R101, R107). -/
def execClockHeldTimerExpiry (g : SegId) (s : State) : Host.Outcome State Fault Refusal :=
  s.running fun s => if (s.seg g).clockHeldTimer.isSome then s.enterFault g else s

/-- CLOSING_STOP_COMPLETE: the monitor sees the stop, and the engine enters IDLE (R102, R103). -/
def execClosingStopComplete (g : SegId) (s : State) : Host.Outcome State Fault Refusal :=
  s.running fun s =>
    if (s.seg g).engine = .check true then (s.modSeg g Seg.ownStop).enterIdle g else s

/-- A closing stop is given up: the lines are released and seen as given, stop owed is kept, and the check timers start
afresh (R102). -/
def Seg.giveUpClosing (v : Seg) (scl sda : Bool) : Seg :=
  (({ v with engine := .check false } : Seg).seeLow scl sda).startCheckTimers

/-- CLOSING_STOP_FAILS (R102, R107). -/
def execClosingStopFails (g : SegId) (how : StopFailure) (s : State) : Host.Outcome State Fault Refusal :=
  s.running fun s =>
    if (s.seg g).engine = .check true then
      match how with
      | .dataNotHigh => s.modSeg g fun v => v.giveUpClosing true false
      | .clockFell => s.modSeg g fun v => v.giveUpClosing false v.sda
      | .clockHeld => (s.modSeg g fun v => v.seeLow false v.sda).enterFault g
    else s

/-! ## RECOVER -/

/-- The next release pulse, or the recovery stop, begins with the clock driven low (R105, R106; log entry 32). -/
def Seg.drivePulse (v : Seg) (stopping sda : Bool) : Seg :=
  ({ v with engine := .recover stopping } : Seg).seeLow false sda

/-- After nine pulses, or at a failed recovery stop, a data line still low is a FAULT; else a pulse follows (R105,
R106). `scl` is the clock level seen then. -/
def State.pulseOrFault (s : State) (g : SegId) (scl : Bool) : State :=
  if Config.pulseLimit ≤ (s.seg g).pulseCount then (s.modSeg g fun v => v.seeLow scl false).enterFault g
  else s.modSeg g fun v => v.drivePulse false false

/-- RELEASE_PULSE: a pulse ends with the data line at the level read (R105). -/
def execReleasePulse (g : SegId) (data : Bool) (s : State) : Host.Outcome State Fault Refusal :=
  s.running fun s =>
    if (s.seg g).engine = .recover false then
      let s := s.setSeg g { s.seg g with pulseCount := (s.seg g).pulseCount + 1 }
      if data then s.modSeg g fun v => v.drivePulse true false else s.pulseOrFault g true
    else s

/-- The engine is in RECOVER. -/
def Engine.isRecover : Engine → Bool
  | .recover _ => true
  | _ => false

/-- RECOVERY_CLOCK_HELD: the clock is held low past the stretch timeout (R105 to R107). -/
def execRecoveryClockHeld (g : SegId) (s : State) : Host.Outcome State Fault Refusal :=
  s.running fun s =>
    if (s.seg g).engine.isRecover then (s.modSeg g fun v => v.seeLow false v.sda).enterFault g else s

/-- RECOVERY_STOP_COMPLETE: the stop completes and the engine enters CHECK, or it fails and a further pulse or FAULT
follows (R106). -/
def execRecoveryStopComplete (g : SegId) (how : StopEnd) (s : State) : Host.Outcome State Fault Refusal :=
  s.running fun s =>
    if (s.seg g).engine = .recover true then
      match how with
      | .complete => s.modSeg g fun v => v.ownStop.enterCheck
      | .dataNotHigh => s.pulseOrFault g true
      | .clockFell => s.pulseOrFault g false
    else s

end Sys2Proof.Machine
end

