-- ==== Sys2Proof/Machine/Admission.lean ====
section
/-! DEFINITION. Admission of a TXN (R2, R25 to R28) and the handling of a CANCEL (R50, R51, R146). -/
namespace Sys2Proof.Machine

/-- What the admission checks hand on when all eleven pass: the slot, the target, its entry, the operation and the
optional fields. -/
structure Admission where
  slot : SlotId
  target : TargetId
  entry : MapEntry
  operation : Operation
  fields : TxnFields
  deriving DecidableEq, Repr

/-- The lookup of a target index: none above 47 or for an invalid entry (R2). -/
def State.lookup (s : State) (t : Byte) : Option (TargetId × MapEntry) :=
  match targetOf t with
  | some t => if (s.mapEntry t).valid then some (t, s.mapEntry t) else none
  | none => none

/-- Whether an engine state refuses admission: FAULT or OFF (R6, R98). -/
def Engine.down : Engine → Bool
  | .off => true
  | .fault => true
  | _ => false

/-- Checks 5 to 11 of admission (R25), on the fields that check 4 found consistent. -/
def State.admitFields (s : State) (p : PortId) (tag : Byte) (t : TargetId) (e : MapEntry) (op : Operation)
    (f : TxnFields) : Except Reason Admission :=
  if !permitted e p op f.writeData then .error .denied
  else if !inWindow e op f then .error .badsub
  else if !lengthsFit e f then .error .toolong
  else if (s.liveTag p tag).isSome then .error .duptag
  else if (s.seg e.segment).engine.down then .error .segdown
  else if Config.window ≤ s.occupied p then .error .window
  else
    match s.freeSlot with
    | none => .error .noslot
    | some i => .ok ⟨i, t, e, op, f⟩

/-- The eleven checks of admission, in order (R25). -/
def State.checkTxn (s : State) (p : PortId) (tag : Byte) (body : List Byte) : Except Reason Admission :=
  match body with
  | t :: o :: flags :: rest =>
    match s.lookup t with
    | none => .error .notarget
    | some (t, e) =>
      match operationOf o with
      | none => .error .badop
      | some op =>
        match txnFields op e.subWidth flags rest with
        | none => .error .badfmt
        | some f => s.admitFields p tag t e op f
  | _ => .error .badfmt

/-- The record of an admitted request (R19, R28). -/
def Slot.admitted (p : PortId) (tag : Byte) (a : Admission) (admission : Nat) : Slot :=
  { Slot.cleared with
    state := .pending
    owner := p
    tag := tag
    target := a.target.val
    snapshot := a.entry.snapshot
    operation := a.operation
    subAddress := a.fields.subAddress
    writeData := a.fields.writeData
    readLength := a.fields.readLength
    lifetimeTimer := a.fields.lifetime
    admission := admission }

/-- An admission: the slot is filled, the request joins the tail of its list, and a lifetime starts its timer (R28). -/
def State.fillSlot (s : State) (p : PortId) (tag : Byte) (a : Admission) : State :=
  let s := s.setSlot a.slot (Slot.admitted p tag a s.nextAdmission)
  let g := a.entry.segment
  let s := s.setSeg g { s.seg g with list := (s.seg g).list ++ [a.slot] }
  { s with nextAdmission := s.nextAdmission + 1 }

/-- A TXN is taken by the admission unit (R25, R27, R28). -/
def State.takeTxn (s : State) (p : PortId) (tag : Byte) (body : List Byte) : State :=
  match s.checkTxn p tag body with
  | .ok a => s.fillSlot p tag a
  | .error reason => s.gatedRefuse p reason kindTxn tag

/-- A CANREPLY (R148, R152). -/
def State.canreply (s : State) (p : PortId) (e : StoreIx) (tag : Byte) (o : CancelOutcome) (named : Byte) : State :=
  s.compose p e ⟨.canreply, .ready, tag, [o.code, named], none, false⟩

/-- A well-formed CANCEL with an entry for its reply (R50, R51): the reply becomes ready ahead of the RESULT. -/
def State.cancelNamed (s : State) (p : PortId) (e : StoreIx) (tag named : Byte) : State :=
  match s.liveTag p named with
  | none => s.canreply p e tag .unknown named
  | some i =>
    if (s.slot i).waiting then (s.canreply p e tag .removed named).withdraw i .cancelled
    else s.canreply p e tag .tooLate named

/-- A CANCEL is taken: the gate, then its length, then the lookup (R146). -/
def State.takeCancel (s : State) (p : PortId) (tag : Byte) (body : List Byte) : State :=
  s.gate p .canreply fun e s =>
    match body with
    | [named] => s.cancelNamed p e tag named
    | _ => s.refuse p e .badfmt kindCancel tag

end Sys2Proof.Machine
end

