-- ==== Sys2Proof/Machine/Drive.lean ====
section
/-! DEFINITION. What an engine drives on its two lines, bit by bit (R60, R62 to R66, R80, R89, R102, R105, R106), the bits it
compares and takes (R65, R66, R88), and the passing of an attempt's phases (R68, R80). The table has no row for a bit, so
no bit position stands in State: where the wire stands inside a byte or a condition is an argument here (log entry 26). -/
namespace Sys2Proof.Machine

/-- What an engine does with its two lines: true drives the line low, false releases it (R60). -/
structure Drive where
  clock : Bool
  data : Bool
  deriving DecidableEq, Repr

/-- Both lines released (R60). -/
def Drive.released : Drive := ⟨false, false⟩

/-- The parts of a clock period (R61 to R66): the low phase, from the moment one quarter into it at which the data line
takes the bit's level; the high phase and the clock following before it; and, in a stop, the time after the data line
was released with the clock high. -/
inductive Part where
  | low
  | high
  | turned
  deriving DecidableEq, Repr

/-- A stop condition (R64), a closing stop (R102) or a recovery stop (R106): both lines low, the clock released, the
data line released. -/
def Drive.stop : Part → Drive
  | .low => ⟨true, true⟩
  | .high => ⟨false, true⟩
  | .turned => ⟨false, false⟩

/-! ## The bits of a byte -/

/-- The number of bytes of a phase (R69, R71, R72). -/
def Slot.phaseLength (r : Slot) : Phase → Nat
  | .read => r.readLength.getD 0
  | ph => (r.phaseBytes ph).length

/-- The byte the engine sends now (R69, R71). -/
def Attempt.sentByte (a : Attempt) (r : Slot) : Byte := (r.phaseBytes a.phase).getD a.bytePos 0

/-- The last byte of READ, which the engine leaves unacknowledged (R66, R72). -/
def Attempt.lastRead (a : Attempt) (r : Slot) : Bool := decide (r.phaseLength .read ≤ a.bytePos + 1)

/-- The phase sends bytes (R68). -/
def Phase.sends : Phase → Bool
  | .address => true
  | .subAddress => true
  | .write => true
  | .addressRead => true
  | .start => false
  | .restart => false
  | .read => false
  | .stop => false

/-- Bit `bit` of a byte on the wire, most significant first: 0 to 7 are the data bits (R65, R66). -/
def wireBit (b : Byte) (bit : Nat) : Bool := b.getMsbD bit

/-- The byte of eight levels read, of which bit k is the level read in the k-th data bit: the bits are taken most
significant first (R66). -/
def byteRead (levels : Byte) : Byte := levels.reverse

/-- Whether the engine drives the data line low in a bit of the current byte (R65, R66, R89): for a 0 bit it sends, and to
acknowledge a byte it reads; an engine that follows after a loss releases it. -/
def Attempt.drivesData (a : Attempt) (r : Slot) (bit : Fin 9) : Bool :=
  !a.following &&
    (a.phase.sends && decide (bit.val < 8) && !wireBit (a.sentByte r) bit.val ||
      decide (a.phase = .read ∧ bit.val = 8) && !a.lastRead r)

/-- Whether the engine compares a bit of the current byte: it has released the data line and expects it high, for a 1 bit
it sends and for its no-acknowledge (R65, R66, R88). -/
def Attempt.compares (a : Attempt) (r : Slot) (bit : Fin 9) : Bool :=
  a.phase.sends && decide (bit.val < 8) && wireBit (a.sentByte r) bit.val ||
    decide (a.phase = .read ∧ bit.val = 8) && a.lastRead r

/-- Whether a data bit that the engine sent as 1 was read low (R65, R88). `levels` holds the levels read in the data
bits, bit k that of the k-th. -/
def Attempt.contradicted (a : Attempt) (r : Slot) (levels : Byte) : Bool :=
  a.phase.sends && decide (a.sentByte r &&& ~~~(byteRead levels) ≠ 0)

/-! ## Conditions and the passing of phases -/

/-- The falling edge of the current condition has been made, and the clock is not yet driven low: in START after the opening
start (R62), in RESTART after the repeated start (R63). -/
def Attempt.made (a : Attempt) : Bool :=
  decide (a.phase = .start) && a.timing.isSome || decide (a.phase = .restart) && a.restarted

/-- The attempt has been aborted and its stop has still to begin: the clock is high in a high phase, or the engine follows a
clock that it has released (R80; log entry 14). -/
def Attempt.aborting (a : Attempt) : Bool :=
  decide (a.failure.map Failure.kind = some .aborted) && decide (a.phase ≠ .stop)

/-- The next phase begins (R68). -/
def Attempt.pass (a : Attempt) (next : Phase) : Attempt := { a with phase := next, restarted := false, bytePos := 0 }

/-- The clock is driven low outside the bits of a byte (R62, R63, R68, R80): an abort turns to its stop; START and RESTART
are over once their start has been made. -/
def Attempt.clockFalls (a : Attempt) (r : Slot) : Attempt :=
  if a.aborting then a.pass .stop else if a.made then a.pass (r.nextPhase a.phase) else a

/-- The clock is seen low outside the bits of a byte, `fell` where it was last seen high. A clock that has stayed low since an
abort is the one the engine follows: the abort has still to see it high, and then fall (R80). -/
def Attempt.seesLow (a : Attempt) (r : Slot) (fell : Bool) : Attempt :=
  if a.aborting && !fell then a else a.clockFalls r

/-- A byte that is over, or that is being sent, shows that the start before it was made (R62, R63; log entry 11). -/
def Attempt.inByte (a : Attempt) (r : Slot) : Attempt :=
  if a.made ∨ a.phase = .restart then a.pass (r.nextPhase a.phase) else a

/-! ## What an engine drives -/

/-- What a running attempt drives in a part of a bit of its phase (R60, R62 to R66, R87, R89). -/
def Attempt.phaseDrive (a : Attempt) (r : Slot) (bit : Fin 9) (part : Part) : Drive :=
  match a.phase with
  | .start => ⟨false, a.made⟩
  | .restart => if a.made then ⟨false, true⟩ else ⟨decide (part = .low), false⟩
  | .stop => if a.following then .released else .stop part
  | .address => ⟨decide (part = .low), a.drivesData r bit⟩
  | .subAddress => ⟨decide (part = .low), a.drivesData r bit⟩
  | .write => ⟨decide (part = .low), a.drivesData r bit⟩
  | .addressRead => ⟨decide (part = .low), a.drivesData r bit⟩
  | .read => ⟨decide (part = .low), a.drivesData r bit⟩

/-- What a running attempt drives (R60, R80). An abort whose stop has still to begin keeps the clock released and the bit's
data while it follows the clock and in the high phase; then it drives the clock low and makes the stop. -/
def Attempt.drive (a : Attempt) (r : Slot) (bit : Fin 9) (part : Part) : Drive :=
  if a.aborting && decide (part ≠ .high) then .stop part else a.phaseDrive r bit part

/-- What the engine of a segment drives (R60, R80, R102, R105, R106), with both lines released while RESETN is low (R82, R115). -/
def State.drive (s : State) (g : SegId) (bit : Fin 9) (part : Part) : Drive :=
  if s.resetn then
    match (s.seg g).engine with
    | .off => .released
    | .check closing => if closing then .stop part else .released
    | .idle => .released
    | .run a => a.drive (s.slot a.slot) bit part
    | .recover stopping => if stopping then .stop part else ⟨decide (part = .low), false⟩
    | .fault => .released
  else .released

end Sys2Proof.Machine
end

