-- ==== Sys2Proof/Machine/Line.lean ====
section
/-! DEFINITION. The shared operations of a host port's line: message assembly's buffer (R136 to R143), the switch point
(R130), the end of a break (R127) and the port restart (R39, R124, R168). -/
namespace Sys2Proof.Machine

/-- An incomplete message is abandoned and counted when one is held (R140, R141). -/
def Port.countAbandoned (v : Port) : Port :=
  if v.assembly.state = .receiving then
    { v with counters := { v.counters with abandoned := bump v.counters.abandoned } }
  else v

/-- A character error reaches assembly (R137, R140, R142): any frame is abandoned, and assembly hunts. -/
def Port.assemblyError (v : Port) : Port := { v.countAbandoned with assembly := Assembly.hunting }

/-- One character error counted (R121, R123). -/
def Port.countCharacterError (v : Port) : Port :=
  { v with counters := { v.counters with characterErrors := bump v.counters.characterErrors } }

/-- The gap timer is started with the gap time in force (R122). -/
def Port.startGap (v : Port) : Port := { v with gapTimer := some v.format.gapLength }

/-- The line is seen at mark: the space timer stops, and a start bit can be detected (R120, R123). -/
def Port.atMark (v : Port) : Port :=
  { v with hrx := v.format.markLevel, receiver := .ready, spaceTimer := none }

/-- A switch point outside break hold (R130): the format comes into force for both directions, a character being
received is discarded, a frame is abandoned, assembly hunts, and the gap timer starts. A transmitter that is finishing
a character takes the format up at its end (R124). The space timer runs on until a further command shows mark or its
expiry, also where a changed polarity makes the level last seen a mark (DESIGN CHOICE, log entry 34). -/
def Port.applySwitch (v : Port) (f : LineFormat) : Port :=
  ({ v.countAbandoned with
    format := f
    txFormat := if v.tx = .finishing then v.txFormat else f
    pendingSwitch := none
    receiver := .waitMark
    assembly := Assembly.hunting } : Port).startGap

/-- A format that comes into force in break hold or at a port restart (R124, R126, R130). -/
def Port.applyInHold (v : Port) (f : LineFormat) : Port :=
  { v with
    format := f
    txFormat := if v.tx = .finishing then v.txFormat else f
    pendingSwitch := none }

/-- The transmitter leaves HELD for IDLE (R127). -/
def Port.leaveHeld (v : Port) : Port := if v.tx = .held then { v with tx := .idle } else v

/-- The end of a break (R127): the PORT_RESTARTED notice, the transmitter IDLE and given its first message, assembly
idle. -/
def State.endBreak (s : State) (p : PortId) : State :=
  (((s.modPort p fun v => { v.atMark with assembly := Assembly.idle }).notice p .portRestarted 0).modPort p
    Port.leaveHeld).give p

/-- In break hold the break has ended once the line's level is mark of the polarity in force (R126, R127). -/
def State.endBreakIfMark (s : State) (p : PortId) : State :=
  if (s.port p).receiver = .breakHold ∧ (s.port p).format.isMark (s.port p).hrx = true then s.endBreak p else s

/-- A switch point taken now, in break hold or out of it (R126, R129, R130). -/
def State.switchNow (s : State) (p : PortId) (f : LineFormat) : State :=
  if (s.port p).receiver = .breakHold then (s.modPort p fun v => v.applyInHold f).endBreakIfMark p
  else s.modPort p fun v => v.applySwitch f

/-- What a break does to the transmitter (R119, R124): SENDING finishes its character, IDLE is HELD at once. -/
def Transmitter.afterBreak : Transmitter → Transmitter
  | .idle => .held
  | .sending => .finishing
  | .finishing => .finishing
  | .held => .held

/-- A break at the port itself (R124, R126, R143, R168): assembly left empty, transmitter held, queue and store emptied,
any pending switch applied. Assembly is idle from here on, also where it was hunting, which R143 ends at the break's
end; it takes no event in between (DESIGN CHOICE, log entry 38). A transmitter that finishes its character keeps the
frame this character is part of. The line is taken as at space of the polarity in force, which the expiry of the space
timer shows; so it is also on a space timer left running by a switch point that changed the polarity, where the level
last seen is mark of that polarity, and the break then holds until BREAK_END (DESIGN CHOICE, log entry 34). -/
def Port.restarted (v : Port) : Port :=
  let u : Port :=
    { v.countAbandoned with
      hrx := !v.format.markLevel
      receiver := .breakHold
      spaceTimer := none
      gapTimer := none
      assembly := Assembly.idle
      tx := v.tx.afterBreak
      queue := []
      store := Vector.replicate 6 none }
  match v.pendingSwitch with
  | some w => u.applyInHold w.format
  | none => u

/-- A port restart at one slot (R39): a waiting request leaves its list and is freed, an answered one is freed, an
ACTIVE one becomes an orphan. -/
def State.restartSlot (s : State) (p : PortId) (i : SlotId) : State :=
  if (s.slot i).owner = p then
    match (s.slot i).state with
    | .free => s
    | .pending => (s.unlist i).releaseSlot i
    | .deferred => (s.unlist i).releaseSlot i
    | .answer => s.releaseSlot i
    | .active => s.modSlot i fun r => { r with orphan := true }
  else s

/-- An outstanding recovery of the port is cleared (R112, R124). -/
def State.dropRecovery (s : State) (p : PortId) (g : SegId) : State :=
  match (s.seg g).recovery with
  | some r => if r.port = p then s.setSeg g { s.seg g with recovery := none } else s
  | none => s

/-- The port restart of a port (R39, R112, R124, R168). -/
def State.portRestart (s : State) (p : PortId) : State :=
  ((((allSlots.foldl (fun s i => s.restartSlot p i) (s.modPort p Port.restarted)).dropRecovery p .A).dropRecovery p
    .B).endBreakIfMark p)

end Sys2Proof.Machine
end

