-- ==== Sys2Proof/Machine/Mgmt.lean ====
section
/-! DEFINITION. The management unit: each operation of R154 with its argument checks, its effect and its MREPLY
(R173 to R189), and the reports (R157, R184 to R188). Each takes the asking port, the store entry the gate reserved, the
frame tag, and the argument bytes. -/
namespace Sys2Proof.Machine

/-- The ports other than the asking one (R18). -/
def otherPorts (p : PortId) : List PortId := allPorts.filter fun q => decide (q ≠ p)

/-- A BADARG reply (R174). -/
def State.badarg (s : State) (p : PortId) (e : StoreIx) (tag op : Byte) : State := s.mreply p e tag op .badarg []

/-! ## Map operations -/

/-- MAP_WRITE with arguments that passed (R15, R18, R175). -/
def State.writeEntry (s : State) (p : PortId) (t : TargetId) (x : MapEntry) : State :=
  (s.setMapEntry t x).noticeTo (otherPorts p) .mapChanged (byte t.val)

/-- MAP_WRITE (R175). -/
def State.mapWrite (s : State) (p : PortId) (e : StoreIx) (tag : Byte) (args : List Byte) : State :=
  match args with
  | ix :: fields =>
    match targetOf ix, entryOfRecord fields with
    | some t, some x => (s.writeEntry p t x).mreply p e tag opMapWrite .done []
    | _, _ => s.badarg p e tag opMapWrite
  | [] => s.badarg p e tag opMapWrite

/-- MAP_READ (R155, R176). -/
def State.mapRead (s : State) (p : PortId) (e : StoreIx) (tag : Byte) (args : List Byte) : State :=
  match args with
  | [ix] =>
    match targetOf ix with
    | some t =>
      s.mreply p e tag opMapRead .done (ix :: flagByte (s.mapEntry t).valid :: (s.mapEntry t).record)
    | none => s.badarg p e tag opMapRead
  | _ => s.badarg p e tag opMapRead

/-- The effect of a MAP_RETIRE (R16, R17, R18): the entry made invalid, the purge, then the notices of an entry that was
valid. -/
def State.retireEntry (s : State) (p : PortId) (t : TargetId) (purge : Bool) : State :=
  let was := (s.mapEntry t).valid
  let s := s.setMapEntry t { s.mapEntry t with valid := false }
  let s := if purge then s.purge t else s
  if was then s.noticeTo (otherPorts p) .mapChanged (byte t.val) else s

/-- Whether a MAP_RETIRE has an effect, and so is DONE (R177). -/
def State.retireEffective (s : State) (t : TargetId) (purge : Bool) : Bool :=
  (s.mapEntry t).valid || (purge && !(s.purgeOrder t).1.isEmpty)

/-- MAP_RETIRE (R177). -/
def State.mapRetire (s : State) (p : PortId) (e : StoreIx) (tag : Byte) (args : List Byte) : State :=
  match args with
  | [ix, flags] =>
    match targetOf ix, flagOf flags with
    | some t, some purge =>
      (s.retireEntry p t purge).mreply p e tag opMapRetire
        (if s.retireEffective t purge then .done else .noeffect) []
    | _, _ => s.badarg p e tag opMapRetire
  | _ => s.badarg p e tag opMapRetire

/-! ## Port operations -/

/-- The line format part of a PORT_SET that is carried out (R128, R129): equal to the one in force, nothing; for the
asking port a switch pending on its MREPLY; for another port one pending on the message in progress, or taken now. -/
def State.setFormat (s : State) (p q : PortId) (e : StoreIx) (f : LineFormat) : State :=
  if f = (s.port q).format then s
  else if q = p then s.modPort q fun v => { v with pendingSwitch := some ⟨f, .replySent e⟩ }
  else if (s.port q).tx = .sending then s.modPort q fun v => { v with pendingSwitch := some ⟨f, .messageSent⟩ }
  else s.switchNow q f

/-- A PORT_SET that is carried out (R128, R171, R178). -/
def State.setProfile (s : State) (p q : PortId) (e : StoreIx) (x : Profile) : State :=
  (({ s with managers := withPort s.managers q x.privilege } : State).modPort q fun v =>
    { v with mask := x.mask }).setFormat p q e x.format

/-- PORT_SET (R178): arguments, last manager, pending switch, then the effect. -/
def State.portSet (s : State) (p : PortId) (e : StoreIx) (tag : Byte) (args : List Byte) : State :=
  match args with
  | q :: fields =>
    match portOf q, profileOfRecord fields with
    | some q, some x =>
      if x.privilege = false ∧ s.managers = onlyPort q then s.mreply p e tag opPortSet .lastmgr []
      else if (s.port q).pendingSwitch.isSome then s.mreply p e tag opPortSet .busy []
      else (s.setProfile p q e x).mreply p e tag opPortSet .done []
    | _, _ => s.badarg p e tag opPortSet
  | [] => s.badarg p e tag opPortSet

/-- The reply data of a PORT_READ (R156, R179). -/
def State.profileReport (s : State) (q : PortId) : List Byte :=
  byte q.val :: (s.port q).format.record ++
    [flagByte (hasPort s.managers q), (s.port q).mask.setWidth 8, flagByte (s.port q).pendingSwitch.isSome] ++
    pendingRecord (s.port q).pendingSwitch

/-- PORT_READ (R179). -/
def State.portRead (s : State) (p : PortId) (e : StoreIx) (tag : Byte) (args : List Byte) : State :=
  match args with
  | [q] =>
    match portOf q with
    | some q => s.mreply p e tag opPortRead .done (s.profileReport q)
    | none => s.badarg p e tag opPortRead
  | _ => s.badarg p e tag opPortRead

/-! ## Segment operations -/

/-- Whether a disable is refused (R109). -/
def Seg.disableRefused (v : Seg) : Bool :=
  match v.engine with
  | .off => false
  | .check _ => !v.list.isEmpty || v.recovery.isSome
  | .idle => !v.list.isEmpty || v.recovery.isSome
  | .fault => !v.list.isEmpty || v.recovery.isSome
  | .run _ => true
  | .recover _ => true

/-- A SEG_SET that is carried out (R108, R109): the setup record replaced, OFF left for CHECK or entered. -/
def Seg.applySetup (v : Seg) (x : Setup) : Seg :=
  let v := { v with setup := x }
  if x.enable then
    match v.engine with
    | .off => v.enterCheck
    | _ => v
  else { v with engine := .off }

/-- SEG_SET (R180). -/
def State.segSet (s : State) (p : PortId) (e : StoreIx) (tag : Byte) (args : List Byte) : State :=
  match args with
  | g :: fields =>
    match segOf g, setupOfBytes fields with
    | some g, some x =>
      if x.enable = false ∧ (s.seg g).disableRefused = true then s.mreply p e tag opSegSet .busy []
      else (s.modSeg g fun v => v.applySetup x).mreply p e tag opSegSet .done []
    | _, _ => s.badarg p e tag opSegSet
  | [] => s.badarg p e tag opSegSet

/-- A held flag set or cleared; NOEFFECT when it already stands as asked (R55, R57, R181). -/
def State.setHeld (s : State) (p : PortId) (e : StoreIx) (tag op : Byte) (g : SegId) (held : Bool) : State :=
  if (s.seg g).held = held then s.mreply p e tag op .noeffect []
  else (s.setSeg g { s.seg g with held := held }).mreply p e tag op .done []

/-- SEG_HOLD (R55, R181). -/
def State.segHold (s : State) (p : PortId) (e : StoreIx) (tag : Byte) (args : List Byte) : State :=
  match args with
  | [g] =>
    match segOf g with
    | some g => s.setHeld p e tag opSegHold g true
    | none => s.badarg p e tag opSegHold
  | _ => s.badarg p e tag opSegHold

/-- SEG_RELEASE (R57, R181). -/
def State.segRelease (s : State) (p : PortId) (e : StoreIx) (tag : Byte) (args : List Byte) : State :=
  match args with
  | [g] =>
    match segOf g with
    | some g => s.setHeld p e tag opSegRelease g false
    | none => s.badarg p e tag opSegRelease
  | _ => s.badarg p e tag opSegRelease

/-- How the engine decides a SEG_RECOVER: none when it is carried out, else the status of the refusal (R111). -/
def Seg.recoverRefusal (v : Seg) : Option MgmtStatus :=
  if v.recovery.isSome then some .busy
  else
    match v.engine with
    | .run _ => some .busy
    | .recover _ => some .busy
    | .off => some .noeffect
    | .check _ => none
    | .idle => none
    | .fault => none

/-- A SEG_RECOVER that is carried out (R104, R111, R164): its entry stays reserved for the segment, the recovery is
recorded, and the engine enters RECOVER. -/
def State.startRecovery (s : State) (p : PortId) (e : StoreIx) (tag : Byte) (g : SegId) : State :=
  (s.modPort p fun v => v.setEntry e (some { StoreEntry.reserve .mreply with reservedFor := some g })).modSeg g
    fun v => ({ v with recovery := some ⟨p, tag⟩ } : Seg).enterRecover

/-- SEG_RECOVER (R111, R182). -/
def State.segRecover (s : State) (p : PortId) (e : StoreIx) (tag : Byte) (args : List Byte) : State :=
  match args with
  | [g] =>
    match segOf g with
    | some g =>
      match (s.seg g).recoverRefusal with
      | some st => s.mreply p e tag opSegRecover st []
      | none => s.startRecovery p e tag g
    | none => s.badarg p e tag opSegRecover
  | _ => s.badarg p e tag opSegRecover

/-- An attempt is aborted (R80). With the clock high, the high phase runs to its end before the stop; so it does where the
engine follows a clock that it has released, once it is seen high; with the clock held low by the engine itself, the stop
begins at once. Which of the last two it is where the clock was last seen low is a free value (log entry 37). -/
def State.abort (s : State) (g : SegId) (a : Attempt) : State :=
  if (s.seg g).scl = false ∧ a.phase ≠ .stop then
    ({ s with freeCount := s.freeCount + 1 } : State).modSeg g fun v =>
      { v with engine := .run (if Config.freeClockReleased s.freeCount then a else a.pass .stop) }
  else s.modSeg g fun v => { v with engine := .run a }

/-- A SEG_RESET that meets a running attempt (R80, R81): before the opening start it ends at once, ABORTED; with no
failure recorded it is aborted, with the where code of its phase (R68); with a first failure it ends at once with that
failure. -/
def State.resetRun (s : State) (g : SegId) (a : Attempt) : State :=
  if a.timing = none then s.endAttempt g a (some ⟨.aborted, .address⟩) none true false
  else
    match a.failure with
    | none => s.abort g { a with failure := some ⟨.aborted, a.phase.place⟩ }
    | some f => s.endAttempt g a (some f) none true (!a.following)

/-- SEG_RESET (R113, R183). In RUN the reply is composed before the attempt ends; log entry 14 has the phase of an abort. -/
def State.segReset (s : State) (p : PortId) (e : StoreIx) (tag : Byte) (args : List Byte) : State :=
  match args with
  | [g] =>
    match segOf g with
    | some g =>
      match (s.seg g).engine with
      | .run a => (s.mreply p e tag opSegReset .done []).resetRun g a
      | .idle => (s.modSeg g Seg.enterCheck).mreply p e tag opSegReset .done []
      | .check _ => (s.modSeg g Seg.enterCheck).mreply p e tag opSegReset .done []
      | .recover _ => s.mreply p e tag opSegReset .noeffect []
      | .fault => s.mreply p e tag opSegReset .noeffect []
      | .off => s.mreply p e tag opSegReset .noeffect []
    | none => s.badarg p e tag opSegReset
  | _ => s.badarg p e tag opSegReset

/-! ## Reports -/

/-- What a STATUS_READ selects (R157). -/
inductive Selector where
  | port (q : PortId)
  | seg (g : SegId)
  | pool
  deriving DecidableEq, Repr

/-- The selector a byte names (R157). -/
def selectorOf (b : Byte) : Option Selector :=
  match portOf b with
  | some q => some (.port q)
  | none =>
    if b = 0x10 then some (.seg .A)
    else if b = 0x11 then some (.seg .B)
    else if b = 0x20 then some .pool
    else none

/-- The number of occupied store entries (R162). -/
def Port.entries (v : Port) : Nat := (allEntries.filter fun e => v.store[e].isSome).length

/-- The port report (R157, R185). -/
def State.portReport (s : State) (q : PortId) : List Byte :=
  (s.port q).counters.bytes ++
    [(s.port q).noticeSeq, byte (s.port q).queue.length, byte (s.port q).entries, byte (s.occupied q),
      flagByte (s.port q).pendingSwitch.isSome]

/-- The outstanding-recovery byte (R157). -/
def recoveryByte : Option Recovery → Byte
  | none => 0xFF
  | some r => byte r.port.val

/-- The segment report (R157, R186). -/
def Seg.report (v : Seg) : List Byte :=
  [v.engine.code, v.engine.phaseCode, v.monitor.code, flagByte v.held, byte v.list.length, flagByte v.setup.enable,
    byte v.setup.timing.busFreeWait, byte v.setup.timing.stretchTimeout, byte v.setup.timing.busyLongLimit,
    flagByte v.stopOwed, flagByte v.readyOwed, recoveryByte v.recovery, byte v.pulseCount] ++ v.counters.bytes

/-- The pool report (R157, R187). -/
def State.poolReport (s : State) : List Byte :=
  allSlots.flatMap fun i => [(s.slot i).code, byte (s.slot i).owner.val, (s.slot i).tag]

/-- The report a selector asks for (R184). -/
def State.report (s : State) : Selector → List Byte
  | .port q => s.portReport q
  | .seg g => (s.seg g).report
  | .pool => s.poolReport

/-- The reported counters set to 0 (R188). -/
def State.clearCounters (s : State) : Selector → State
  | .port q => s.modPort q fun v => { v with counters := PortCounters.zero }
  | .seg g => s.setSeg g { s.seg g with counters := SegCounters.zero }
  | .pool => s

/-- STATUS_READ (R184, R188). -/
def State.statusRead (s : State) (p : PortId) (e : StoreIx) (tag : Byte) (args : List Byte) : State :=
  match args with
  | [sel, flags] =>
    match selectorOf sel, flagOf flags with
    | some x, some clear =>
      (if clear then s.clearCounters x else s).mreply p e tag opStatusRead .done (sel :: s.report x)
    | _, _ => s.badarg p e tag opStatusRead
  | _ => s.badarg p e tag opStatusRead

/-! ## Restart -/

/-- RESTART (R189): a DONE reply, marked; the general restart begins when it has been transmitted. -/
def State.restartOp (s : State) (p : PortId) (e : StoreIx) (tag : Byte) (args : List Byte) : State :=
  match args with
  | [] => s.compose p e ⟨.mreply, .ready, tag, [opRestart, MgmtStatus.done.code], none, true⟩
  | _ => s.badarg p e tag opRestart

/-! ## Taking a MGMT -/

/-- The operation of a code, or the refusal BADOP (R147 steps 3 and 4). -/
def State.mgmtOp (s : State) (p : PortId) (e : StoreIx) (tag op : Byte) (args : List Byte) : State :=
  if op = opMapWrite then s.mapWrite p e tag args
  else if op = opMapRead then s.mapRead p e tag args
  else if op = opMapRetire then s.mapRetire p e tag args
  else if op = opPortSet then s.portSet p e tag args
  else if op = opPortRead then s.portRead p e tag args
  else if op = opSegSet then s.segSet p e tag args
  else if op = opSegHold then s.segHold p e tag args
  else if op = opSegRelease then s.segRelease p e tag args
  else if op = opSegRecover then s.segRecover p e tag args
  else if op = opSegReset then s.segReset p e tag args
  else if op = opStatusRead then s.statusRead p e tag args
  else if op = opRestart then s.restartOp p e tag args
  else s.refuse p e .badop kindMgmt tag

/-- A MGMT is taken: the gate, the privilege, the body, the operation (R147). -/
def State.takeMgmt (s : State) (p : PortId) (tag : Byte) (body : List Byte) : State :=
  s.gate p .mreply fun e s =>
    if hasPort s.managers p = false then s.refuse p e .nopriv kindMgmt tag
    else
      match body with
      | [] => s.refuse p e .badfmt kindMgmt tag
      | op :: args => s.mgmtOp p e tag op args

end Sys2Proof.Machine
end

