-- ==== Sys2Proof/Machine/Messages.lean ====
section
/-! DEFINITION. Message assembly (R137 to R142), the judging of a frame (R139), and the handing on of a good message
(R144). -/
namespace Sys2Proof.Machine

/-- A good message is handed on (R144): counted, judged on its version and kind, and taken by its handler. -/
def State.takeMessage (s : State) (p : PortId) (kind tag : Byte) (body : List Byte) : State :=
  let s := s.modPort p fun v => { v with counters := { v.counters with accepted := bump v.counters.accepted } }
  if kindVersion kind ≠ 1 then s.gatedRefuse p .badver kind tag
  else if kindCode kind = 1 then s.takeTxn p tag body
  else if kindCode kind = 2 then s.takeCancel p tag body
  else if kindCode kind = 3 then s.takeMgmt p tag body
  else s.gatedRefuse p .badkind kind tag

/-- A complete frame is judged (R139): assembly is idle, and the frame is handed on, or discarded and counted when its
CRC does not match. -/
def State.judgeFrame (s : State) (p : PortId) (kind tag : Byte) (body : List Byte) (crc : BitVec 16) : State :=
  let s := s.modPort p fun v => { v with assembly := Assembly.idle }
  if crcOf (covered kind tag body) = crc then s.takeMessage p kind tag body
  else s.modPort p fun v => { v with counters := { v.counters with crcErrors := bump v.counters.crcErrors } }

/-- A buffer holds its whole frame: its length is the expected length (R138). -/
def frameDone : List Byte → Bool
  | a :: b :: c :: len :: rest => decide ((a :: b :: c :: len :: rest).length = len.toNat + Config.frameOverhead)
  | _ => false

/-- The complete frame in a buffer is taken apart and judged (R134, R138, R139). -/
def State.judgeBuffer (s : State) (p : PortId) (buffer : List Byte) : State :=
  match buffer with
  | _ :: kind :: tag :: len :: rest =>
    match rest.drop len.toNat with
    | [h, l] => s.judgeFrame p kind tag (rest.take len.toNat) (BitVec.ofNat 16 (word16 h l))
    | _ => s
  | _ => s

/-- A good byte in receiving (R138): appended; a fourth byte above 200 abandons the frame; a whole frame is judged. -/
def State.receiveByte (s : State) (p : PortId) (b : Byte) : State :=
  let buffer := (s.port p).assembly.buffer ++ [b]
  if buffer.length = 4 ∧ Config.maxBody < b.toNat then s.modPort p Port.assemblyError
  else if frameDone buffer then s.judgeBuffer p buffer
  else s.modPort p fun v => { v with assembly := ⟨.receiving, buffer⟩ }

/-- A good byte reaches assembly (R137, R138, R142). -/
def State.assembleByte (s : State) (p : PortId) (b : Byte) : State :=
  match (s.port p).assembly.state with
  | .idle =>
    if b = leadByte then s.modPort p fun v => { v with assembly := ⟨.receiving, [b]⟩ }
    else
      s.modPort p fun v => { v with counters := { v.counters with noiseBytes := bump v.counters.noiseBytes } }
  | .receiving => s.receiveByte p b
  | .hunting => s

/-- The receiver can take characters: it is not in break watch or break hold (R123, R126). -/
def Receiver.open : Receiver → Bool
  | .waitMark => true
  | .ready => true
  | .inCharacter => true
  | .breakWatch => false
  | .breakHold => false

/-- The rest of a frame's characters can arrive (log entry 3): the receiver is open, and assembly is idle or holds the
first part of that frame. -/
def Port.canComplete (v : Port) (frame : List Byte) : Bool :=
  v.receiver.open && decide (v.assembly.state ≠ .hunting) && v.assembly.buffer.isPrefixOf frame &&
    decide (v.assembly.buffer.length < frame.length)

/-- A character judged good ends with the line at mark, and the gap timer starts (R121, R122). -/
def Port.goodEnd (v : Port) : Port := v.atMark.startGap

/-- A frame completes on a port: the rest of its characters arrive good, and it is judged (R138, R139; log entry 3). A
frame that cannot complete there changes nothing. -/
def State.completeFrame (s : State) (p : PortId) (kind tag : Byte) (body : List Byte) (crc : BitVec 16) : State :=
  if body.length ≤ Config.maxBody ∧ (s.port p).canComplete (frameWithCrc kind tag body crc) = true then
    (s.modPort p Port.goodEnd).judgeFrame p kind tag body crc
  else s

/-- A frame with a matching CRC completes on a port. -/
def State.completeMessage (s : State) (p : PortId) (kind tag : Byte) (body : List Byte) : State :=
  s.completeFrame p kind tag body (crcOf (covered kind tag body))

end Sys2Proof.Machine
end

