-- ==== Sys2Proof/Machine/Management.lean ====
section
/-! DEFINITION. The management commands (R147, R173): each is the completion, on its port, of the MGMT frame whose body
is the operation code and the argument bytes (log entry 3). -/
namespace Sys2Proof.Machine

/-- MAP_WRITE (R15, R18, R175). -/
def execMapWrite (p : PortId) (tag : Byte) (args : List Byte) (s : State) : Host.Outcome State Fault Refusal :=
  s.running fun s => s.completeMessage p kindMgmt tag (opMapWrite :: args)

/-- MAP_READ (R176). -/
def execMapRead (p : PortId) (tag : Byte) (args : List Byte) (s : State) : Host.Outcome State Fault Refusal :=
  s.running fun s => s.completeMessage p kindMgmt tag (opMapRead :: args)

/-- MAP_RETIRE (R16, R17, R18, R177). -/
def execMapRetire (p : PortId) (tag : Byte) (args : List Byte) (s : State) : Host.Outcome State Fault Refusal :=
  s.running fun s => s.completeMessage p kindMgmt tag (opMapRetire :: args)

/-- PORT_SET (R128 to R130, R178). -/
def execPortSet (p : PortId) (tag : Byte) (args : List Byte) (s : State) : Host.Outcome State Fault Refusal :=
  s.running fun s => s.completeMessage p kindMgmt tag (opPortSet :: args)

/-- PORT_READ (R179). -/
def execPortRead (p : PortId) (tag : Byte) (args : List Byte) (s : State) : Host.Outcome State Fault Refusal :=
  s.running fun s => s.completeMessage p kindMgmt tag (opPortRead :: args)

/-- SEG_SET (R108, R109, R180). -/
def execSegSet (p : PortId) (tag : Byte) (args : List Byte) (s : State) : Host.Outcome State Fault Refusal :=
  s.running fun s => s.completeMessage p kindMgmt tag (opSegSet :: args)

/-- SEG_HOLD (R55, R181). -/
def execSegHold (p : PortId) (tag : Byte) (args : List Byte) (s : State) : Host.Outcome State Fault Refusal :=
  s.running fun s => s.completeMessage p kindMgmt tag (opSegHold :: args)

/-- SEG_RELEASE (R57, R181). -/
def execSegRelease (p : PortId) (tag : Byte) (args : List Byte) (s : State) : Host.Outcome State Fault Refusal :=
  s.running fun s => s.completeMessage p kindMgmt tag (opSegRelease :: args)

/-- SEG_RECOVER (R104, R111, R182). -/
def execSegRecover (p : PortId) (tag : Byte) (args : List Byte) (s : State) : Host.Outcome State Fault Refusal :=
  s.running fun s => s.completeMessage p kindMgmt tag (opSegRecover :: args)

/-- SEG_RESET (R80, R81, R113, R183). -/
def execSegReset (p : PortId) (tag : Byte) (args : List Byte) (s : State) : Host.Outcome State Fault Refusal :=
  s.running fun s => s.completeMessage p kindMgmt tag (opSegReset :: args)

/-- STATUS_READ (R184 to R188). -/
def execStatusRead (p : PortId) (tag : Byte) (args : List Byte) (s : State) : Host.Outcome State Fault Refusal :=
  s.running fun s => s.completeMessage p kindMgmt tag (opStatusRead :: args)

/-- RESTART (R189). -/
def execRestart (p : PortId) (tag : Byte) (args : List Byte) (s : State) : Host.Outcome State Fault Refusal :=
  s.running fun s => s.completeMessage p kindMgmt tag (opRestart :: args)

end Sys2Proof.Machine
end

