-- ==== Sys2Proof/Machine/Receive.lean ====
section
/-! DEFINITION. The commands of a port's receive side (R120 to R127, R137 to R144). -/
namespace Sys2Proof.Machine

/-! ## Characters -/

/-- A character error at the end of a character (R121): counted, handed on, and the gap timer starts; the line stands
as its last stop bit was sampled. -/
def Port.characterError (v : Port) (atMark : Bool) : Port :=
  let u := v.countCharacterError.assemblyError.startGap
  if atMark then u.atMark else { u with hrx := !v.format.markLevel, receiver := .waitMark, spaceTimer := none }

/-- A break candidate is held in break watch (R121, R123): nothing is handed on, the gap timer stays stopped, and the
space timer runs on from the start bit. A character that brings its own start bit (log entry 5) starts the timer at that
edge, at the length of the format in force, whatever ran before. -/
def Port.watchBreak (v : Port) : Port :=
  { v with
    hrx := !v.format.markLevel
    receiver := .breakWatch
    gapTimer := none
    spaceTimer := if v.receiver = .inCharacter ∧ v.spaceTimer.isSome then v.spaceTimer else some v.format.breakLength }

/-- The level of the last stop bit of a character is mark. -/
def LineFormat.endsAtMark (f : LineFormat) (c : RxChar) : Bool :=
  f.isMark (if f.stopBits = 2 then c.stop2 else c.stop1)

/-- A character ends on a receiver that is open (R121, R122). A candidate whose second stop bit is back at mark ends its
watch at once (R123). -/
def State.endCharacter (s : State) (p : PortId) (c : RxChar) : State :=
  let f := (s.port p).format
  match f.judge c with
  | .good b => (s.modPort p Port.goodEnd).assembleByte p b
  | .error => s.modPort p fun v => v.characterError (f.endsAtMark c)
  | .candidate =>
    if f.endsAtMark c then s.modPort p fun v => v.characterError true else s.modPort p Port.watchBreak

/-- CHARACTER_RECEIVED (R121, R122, R137 to R140). -/
def execCharacterReceived (p : PortId) (c : RxChar) (s : State) : Host.Outcome State Fault Refusal :=
  s.running fun s => if (s.port p).receiver.open then s.endCharacter p c else s

/-- A start bit that stands (R120, R122, R123): the space timer starts and the gap timer stops. -/
def Port.startStands (v : Port) : Port :=
  { v with
    hrx := !v.format.markLevel
    receiver := .inCharacter
    spaceTimer := some v.format.breakLength
    gapTimer := none }

/-- The receiver can detect a start bit: it is in no character, break watch or break hold (R120). -/
def Receiver.detects : Receiver → Bool
  | .waitMark => true
  | .ready => true
  | .inCharacter => false
  | .breakWatch => false
  | .breakHold => false

/-- START_BIT: the change to space, and half a bit time later the start bit stands or the change is discarded (R120,
R122, R123). -/
def execStartBit (p : PortId) (stands : Bool) (s : State) : Host.Outcome State Fault Refusal :=
  s.running fun s =>
    if (s.port p).receiver.detects then s.modPort p (if stands then Port.startStands else Port.atMark) else s

/-! ## Frames -/

/-- CRC_ERROR: a frame completes whose CRC does not match (R139). -/
def execCrcError (p : PortId) (kind tag : Byte) (body : List Byte) (crc : BitVec 16) (s : State) :
    Host.Outcome State Fault Refusal :=
  s.running fun s =>
    if crcOf (covered kind tag body) = crc then s else s.completeFrame p kind tag body crc

/-- BADVER_BADKIND_MESSAGE: a good message is refused for its version or its kind (R144). -/
def execBadverBadkindMessage (p : PortId) (kind tag : Byte) (body : List Byte) (s : State) :
    Host.Outcome State Fault Refusal :=
  s.running fun s => if kindAccepted kind then s else s.completeMessage p kind tag body

/-! ## Gap timer and breaks -/

/-- BREAK_WATCH_ENDS_AT_MARK: the line returns to mark (R123); in break watch the candidate is a character error. A
receiver that only waits for mark has seen it, and nothing is counted (R130). -/
def execBreakWatchEndsAtMark (p : PortId) (s : State) : Host.Outcome State Fault Refusal :=
  s.running fun s =>
    match (s.port p).receiver with
    | .breakWatch => s.modPort p fun v => v.characterError true
    | .waitMark => s.modPort p Port.atMark
    | .ready => s
    | .inCharacter => s
    | .breakHold => s

/-- The expiry of the gap timer (R141): a frame is abandoned and counted, hunting ends. -/
def Port.gapExpiry (v : Port) : Port := { v.countAbandoned with gapTimer := none, assembly := Assembly.idle }

/-- GAP_TIMER_EXPIRY (R122, R141). A stopped timer does not expire. -/
def execGapTimerExpiry (p : PortId) (s : State) : Host.Outcome State Fault Refusal :=
  s.running fun s => if (s.port p).gapTimer.isSome then s.modPort p Port.gapExpiry else s

/-- The space timer can expire (R123, R130): the character that began at its edge has ended as a break candidate, or was
discarded at a switch point while the line stays at space. Inside a character it cannot, since the threshold is at least
2 character times; a ready receiver has seen mark, and in break hold the timer is stopped (R126). -/
def Receiver.outlasted : Receiver → Bool
  | .waitMark => true
  | .breakWatch => true
  | .ready => false
  | .inCharacter => false
  | .breakHold => false

/-- BREAK: the space timer expires, a break is recognized, and the port restarts (R39, R123, R124, R168). A stopped
timer does not expire. -/
def execBreak (p : PortId) (s : State) : Host.Outcome State Fault Refusal :=
  s.running fun s =>
    if (s.port p).spaceTimer.isSome ∧ (s.port p).receiver.outlasted = true then s.portRestart p else s

/-- BREAK_END: the line is seen at mark after a break (R127, R169). -/
def execBreakEnd (p : PortId) (s : State) : Host.Outcome State Fault Refusal :=
  s.running fun s => if (s.port p).receiver = .breakHold then s.endBreak p else s

end Sys2Proof.Machine
end

