-- ==== Sys2Proof/Machine/Requests.lean ====
section
/-! DEFINITION. The host messages TXN, CANCEL, and a MGMT that names no operation (R25, R146, R147). Each command is the
completion of the message's frame on its port (log entry 3). -/
namespace Sys2Proof.Machine

/-- TXN (R25 to R28). -/
def execTxn (p : PortId) (tag : Byte) (body : List Byte) (s : State) : Host.Outcome State Fault Refusal :=
  s.running fun s => s.completeMessage p kindTxn tag body

/-- CANCEL (R50, R51, R146). -/
def execCancel (p : PortId) (tag : Byte) (body : List Byte) (s : State) : Host.Outcome State Fault Refusal :=
  s.running fun s => s.completeMessage p kindCancel tag body

/-- MGMT_BADOP: a MGMT with an empty body or an unknown operation code (R147). A body that names an operation is the
command of that operation and not this one. -/
def execMgmtBadop (p : PortId) (tag : Byte) (body : List Byte) (s : State) : Host.Outcome State Fault Refusal :=
  s.running fun s => if mgmtNamed body then s else s.completeMessage p kindMgmt tag body

end Sys2Proof.Machine
end

