-- ==== Sys2Proof/Machine/Reset.lean ====
section
/-! DEFINITION. DEVICE_RESET and DEVICE_RESET_END (R115, R133, R170). -/
namespace Sys2Proof.Machine

/-- DEVICE_RESET: RESETN goes low; every block takes its reset values and holds them (R5, R40, R59, R82, R115, R133,
R170, R171). -/
def execDeviceReset (s : State) : Host.Outcome State Fault Refusal := .next s.inReset

/-- DEVICE_RESET_END: RESETN rises; the ports start at the reset format, and the engines and monitors start their
timers from the levels seen (R83, R86, R100, R115, R133). Without a reset to end there is no such event. -/
def execDeviceResetEnd (a b : Levels) (s : State) : Host.Outcome State Fault Refusal :=
  if s.resetn then .next s else .next (s.started a b)

end Sys2Proof.Machine
end

