-- ==== Sys2Proof/Machine/Schedule.lean ====
section
/-! DEFINITION. The commands of a segment scheduler: the arbiter's choice (R30, R44 to R47) and the timers of waiting
requests (R35, R48, R49). -/
namespace Sys2Proof.Machine

/-- The attempt record as the choice begins it (R67). -/
def Attempt.begin (i : SlotId) : Attempt := ⟨i, .start, false, 0, 0, [], none, false, none⟩

/-- The arbiter takes a request (R30, R46, R47): the eligible requests older than it are passed over, it becomes ACTIVE
and leaves the list, and the engine enters RUN. -/
def State.choose (s : State) (g : SegId) (i : SlotId) : State :=
  let s' := (s.passed g i).foldl (fun s j => s.modSlot j Slot.passOver) s
  (s'.modSlot i fun r => { r with state := .active }).modSeg g fun v =>
    { v with list := v.list.filter fun j => decide (j ≠ i), engine := .run (Attempt.begin i) }

/-- CHOICE: taken when the engine is IDLE, the monitor FREE, and a request eligible (R44, R45). -/
def execChoice (g : SegId) (s : State) : Host.Outcome State Fault Refusal :=
  s.running fun s =>
    if (s.seg g).engine = .idle ∧ (s.seg g).monitor = .free then
      match s.best g with
      | some i => s.choose g i
      | none => s
    else s

/-- RETRY_TIMER_EXPIRY: a DEFERRED request becomes PENDING at its place (R35, R49). A stopped timer does not expire. -/
def execRetryTimerExpiry (i : SlotId) (s : State) : Host.Outcome State Fault Refusal :=
  s.running fun s =>
    if (s.slot i).state = .deferred ∧ (s.slot i).retryTimer.isSome = true then
      s.modSlot i fun r => { r with state := .pending, retryTimer := none }
    else s

/-- The lifetime timer of a slot expires (R48): the deadline has passed, and a waiting request is answered EXPIRED. -/
def State.expireLifetime (s : State) (i : SlotId) : State :=
  let s := s.modSlot i fun r => { r with deadlinePassed := true, lifetimeTimer := none }
  if (s.slot i).waiting then s.withdraw i .expired else s

/-- LIFETIME_EXPIRY (R48). A stopped timer does not expire. -/
def execLifetimeExpiry (i : SlotId) (s : State) : Host.Outcome State Fault Refusal :=
  s.running fun s => if (s.slot i).lifetimeTimer.isSome then s.expireLifetime i else s

end Sys2Proof.Machine
end

