-- ==== Sys2Proof/Machine/Transmit.lean ====
section
/-! DEFINITION. The commands of a port's transmit side (R119, R124, R161). -/
namespace Sys2Proof.Machine

/-- What an item held is released (R161 step 2): a slot is freed, an entry leaves the store. -/
def State.releaseItem (s : State) (p : PortId) : Item → State
  | .result i => s.releaseSlot i
  | .entry e => s.modPort p fun v => v.setEntry e none

/-- Whether the completion of an item's message is the switch point of a pending switch (R129). -/
def PendingSwitch.reached (w : PendingSwitch) (item : Item) : Bool :=
  match w.point with
  | .messageSent => true
  | .replySent e => decide (item = .entry e)

/-- A pending switch whose switch point is the completion of the item is applied (R161 step 3). -/
def State.switchAt (s : State) (p : PortId) (item : Item) : State :=
  match (s.port p).pendingSwitch with
  | some w => if w.reached item then s.modPort p fun v => v.applySwitch w.format else s
  | none => s

/-- Whether the item is the marked reply to a RESTART (R189). -/
def Port.isRestartReply (v : Port) : Item → Bool
  | .result _ => false
  | .entry e => (v.store[e].map StoreEntry.restartReply).getD false

/-- The completion of the head item's transmission, steps 1 to 5 (R161). -/
def State.complete (s : State) (p : PortId) (item : Item) (rest : List Item) : State :=
  let t := ((s.modPort p fun v => { v with queue := rest, tx := .idle, txFrame := [] }).releaseItem p item).switchAt p
    item
  if (s.port p).isRestartReply item then t.generalRestart else t.give p

/-- MESSAGE_TRANSMITTED: the last stop bit of an outgoing message is sent (R37, R130, R161, R190). -/
def execMessageTransmitted (p : PortId) (s : State) : Host.Outcome State Fault Refusal :=
  s.running fun s =>
    match (s.port p).tx, (s.port p).queue with
    | .sending, item :: rest => s.complete p item rest
    | _, _ => s

/-- The end of the character that a port restart let finish (R124): the transmitter takes up the format in force and
enters HELD, or, when the break has ended already, passes to IDLE (log entry 17). -/
def Port.finishCharacter (v : Port) : Port :=
  { v with txFormat := v.format, txFrame := [], tx := if v.receiver = .breakHold then .held else .idle }

/-- TRANSMITTER_HELD (R119, R124, R127). -/
def execTransmitterHeld (p : PortId) (s : State) : Host.Outcome State Fault Refusal :=
  s.running fun s =>
    if (s.port p).tx = .finishing then (s.modPort p Port.finishCharacter).give p else s

end Sys2Proof.Machine
end

