-- ==== Sys2Proof/Machine/Wire.lean ====
section
/-! DEFINITION. The commands of a running attempt (R60 to R82, R86 to R95). -/
namespace Sys2Proof.Machine

/-- The attempt in progress on a segment, if its engine is in RUN. -/
def Engine.attempt : Engine → Option Attempt
  | .run a => some a
  | _ => none

/-- A running attempt's record is replaced. -/
def State.setAttempt (s : State) (g : SegId) (a : Attempt) : State := s.modSeg g fun v => { v with engine := .run a }

/-- A command that meets a running attempt; with none there is no such event. -/
def State.inRun (s : State) (g : SegId) (f : Attempt → State) : State :=
  match (s.seg g).engine.attempt with
  | some a => f a
  | none => s

/-! ## The opening start -/

/-- What the opening start captures (R61, R62). -/
def AttemptTiming.capture (r : Slot) (t : Timing) : AttemptTiming :=
  ⟨lowPhase r.snapshot.speed r.snapshot.slowDown, highPhase r.snapshot.speed r.snapshot.slowDown, t.stretchTimeout⟩

/-- The opening start is issued (R62, R86): one attempt counted, the setup record's timing put in force and captured, and
the monitor sees the start (log entry 10). START lasts until the clock is driven low (R68). -/
def State.openAttempt (s : State) (g : SegId) (a : Attempt) : State :=
  let r := s.slot a.slot
  (s.modSlot a.slot fun r => { r with attempts := r.attempts + 1 }).modSeg g fun v =>
    ({ v with
      inForce := v.setup.timing
      engine := .run { a with timing := some (AttemptTiming.capture r v.setup.timing) } } : Seg).monitorStart.see true false

/-- OPENING_START: before the opening start, with both lines high and the monitor still FREE (R62, R87). -/
def execOpeningStart (g : SegId) (s : State) : Host.Outcome State Fault Refusal :=
  s.running fun s =>
    s.inRun g fun a =>
      if a.timing = none ∧ (s.seg g).monitor = .free ∧ (s.seg g).scl = true ∧ (s.seg g).sda = true then
        s.openAttempt g a
      else s

/-! ## Bytes -/

/-- A byte of the current phase is over: the next byte, or the next phase (R67, R68). -/
def Attempt.advance (a : Attempt) (r : Slot) : Attempt :=
  if a.bytePos + 1 < r.phaseLength a.phase then { a with bytePos := a.bytePos + 1 } else a.pass (r.nextPhase a.phase)

/-- A byte not acknowledged: the first failure, and the attempt turns to its stop (R74, R75). -/
def Attempt.nack (a : Attempt) (kind : FailKind) : Attempt :=
  ({ a with failure := some ⟨kind, a.phase.place⟩ } : Attempt).pass .stop

/-- Arbitration is lost within a byte: the first failure, and the conduct becomes following (R88, R89). -/
def Attempt.lose (a : Attempt) : Attempt :=
  { a with failure := some ⟨.arbitrationLost, a.phase.place⟩, following := true }

/-- A byte is read: it joins the read data when its eighth bit has been read (R66, R72). -/
def Attempt.takeByte (a : Attempt) (levels : Byte) : Attempt := { a with readData := a.readData ++ [byteRead levels] }

/-- The attempt after the acknowledge bit of a byte (R65, R66, R71, R72, R74, R75). `levels` holds the levels read in the
eight data bits, bit k that of the k-th; `ninth` is the level of the acknowledge bit where the engine released it. A 1 bit
that was read low, or the no-acknowledge read low, is a loss (R65, R66, R88). -/
def Attempt.afterByte (a : Attempt) (r : Slot) (levels : Byte) (ninth : Bool) : Attempt :=
  if a.contradicted r levels then a.lose
  else
    match a.phase with
    | .address => if ninth then a.nack .addressNack else a.advance r
    | .addressRead => if ninth then a.nack .addressNack else a.advance r
    | .subAddress => if ninth then a.nack .dataNack else a.advance r
    | .write => if ninth then a.nack .dataNack else ({ a with written := a.written + 1 } : Attempt).advance r
    | .read =>
      let a := a.takeByte levels
      if a.lastRead r && !ninth then a.lose else a.advance r
    | .start => a
    | .restart => a
    | .stop => a

/-- The level of the data line at the end of a byte: low where the engine acknowledges the byte itself (R60, R66). -/
def Attempt.ninthLevel (a : Attempt) (r : Slot) (ninth : Bool) : Bool := ninth && !a.drivesData r 8

/-- ACKNOWLEDGE_BIT_READ: the acknowledge bit of a byte is over, and the clock is driven low (R65 to R75). An engine
that follows after a loss, or makes its stop, reads no such bit (R89). Where the levels show a loss, the clock is recorded as
seen low, and the engine follows until ATTEMPT_ENDS_ARBITRATION_LOST: the command is then not the fall after the ninth bit
at which R89 ends the attempt (DESIGN CHOICE, log entry 39). -/
def execAcknowledgeBitRead (g : SegId) (data : Byte) (ninth : Bool) (s : State) :
    Host.Outcome State Fault Refusal :=
  s.running fun s =>
    s.inRun g fun a =>
      if a.failure = none ∧ a.timing.isSome = true ∧ a.phase ≠ .stop then
        let r := s.slot a.slot
        let a := a.inByte r
        s.modSeg g fun v =>
          ({ v with engine := .run (a.afterByte r data ninth) } : Seg).seeLow false (a.ninthLevel r ninth)
      else s

/-! ## Arbitration -/

/-- Whether a loss of arbitration can be seen (R88): in a byte, in a bit that the engine compares; at a repeated start not
yet made and at a stop, also as a clock that falls early. -/
def Attempt.canLose (a : Attempt) (r : Slot) (how : LossCause) : Bool :=
  match a.phase with
  | .start => false
  | .restart => true
  | .stop => true
  | _ =>
    match how with
    | .dataLow bit _ => a.compares r bit
    | .clockFell => false

/-- The lines as they are seen at a loss (R88). -/
def Seg.seeLoss (v : Seg) : LossCause → Seg
  | .dataLow _ _ => v.seeLow true false
  | .clockFell => v.seeLow false v.sda

/-- What the engine has read when a loss is seen: in READ that is in the no-acknowledge, after the byte's eighth bit (R66, R72,
R88). -/
def Attempt.readBy (a : Attempt) : LossCause → Attempt
  | .dataLow bit data => if a.phase = .read ∧ bit.val = 8 then a.takeByte data else a
  | .clockFell => a

/-- A loss of arbitration while the engine drives (R72, R76, R88, R89): a second failure when one is recorded; at a repeated
start or a stop the attempt ends at once; within a byte the engine follows. -/
def State.loseArbitration (s : State) (g : SegId) (a : Attempt) (how : LossCause) : State :=
  match a.failure with
  | some f => s.endAttempt g a (some f) (some .arbitrationLost) true false
  | none =>
    if a.phase = .restart ∨ a.phase = .stop then s.endFollowing g a.lose else s.setAttempt g (a.readBy how).lose

/-- ARBITRATION_LOST (R72, R76, R88, R89). A start that has been made is over, and an abort is at its stop (R68, R80). -/
def execArbitrationLost (g : SegId) (how : LossCause) (s : State) : Host.Outcome State Fault Refusal :=
  s.running fun s =>
    s.inRun g fun a =>
      let a := a.clockFalls (s.slot a.slot)
      if a.following = false ∧ a.canLose (s.slot a.slot) how = true then
        (s.modSeg g fun v => v.seeLoss how).loseArbitration g a how
      else s

/-! ## The ends of an attempt -/

/-- The attempt makes its stop with the first failure given, or with none, and has not lost arbitration; an abort may reach
its stop unseen (log entry 9). -/
def Attempt.stopsWith (a : Attempt) (kind : Option FailKind) : Bool :=
  (decide (a.phase = .stop) || a.aborting) && !a.following && decide (a.failure.map Failure.kind = kind)

/-- The stop of an attempt completes: the monitor sees it, the pool takes the outcome, and the engine leaves RUN (R64,
R73 to R77). -/
def State.completeStop (s : State) (g : SegId) (a : Attempt) (toCheck : Bool) : State :=
  (s.modSeg g Seg.ownStop).endAttempt g a a.failure none toCheck false

/-- ATTEMPT_ENDS_OK (R73). -/
def execAttemptEndsOk (g : SegId) (s : State) : Host.Outcome State Fault Refusal :=
  s.running fun s => s.inRun g fun a => if a.stopsWith none then s.completeStop g a false else s

/-- ATTEMPT_ENDS_ADDRESS_NACK (R74). -/
def execAttemptEndsAddressNack (g : SegId) (s : State) : Host.Outcome State Fault Refusal :=
  s.running fun s =>
    s.inRun g fun a => if a.stopsWith (some .addressNack) then s.completeStop g a false else s

/-- ATTEMPT_ENDS_DATA_NACK (R75). -/
def execAttemptEndsDataNack (g : SegId) (s : State) : Host.Outcome State Fault Refusal :=
  s.running fun s => s.inRun g fun a => if a.stopsWith (some .dataNack) then s.completeStop g a false else s

/-- ATTEMPT_ENDS_ABORTED: the stop of an aborted attempt completes (R80). -/
def execAttemptEndsAborted (g : SegId) (s : State) : Host.Outcome State Fault Refusal :=
  s.running fun s => s.inRun g fun a => if a.stopsWith (some .aborted) then s.completeStop g a true else s

/-- ATTEMPT_ENDS_ARBITRATION_LOST: the following after a loss ends (R89, R90). -/
def execAttemptEndsArbitrationLost (g : SegId) (s : State) : Host.Outcome State Fault Refusal :=
  s.running fun s => s.inRun g fun a => if a.following then s.endFollowing g a else s

/-- A stretch timeout ends a running attempt (R76, R94, R100): as its first failure, or as a second one beside it; the
transfer is left open unless the engine was following. -/
def State.stretchOut (s : State) (g : SegId) (a : Attempt) : State :=
  match a.failure with
  | none => s.endAttempt g a (some ⟨.stretchTimeout, a.phase.place⟩) none true true
  | some f => s.endAttempt g a (some f) (some .stretchTimeout) true (!a.following)

/-- STRETCH_TIMEOUT: the clock stays low past the attempt's stretch timeout (R76, R94). Before the opening start the
engine has released no clock; a start that has been made is over when the clock is low (R68). -/
def execStretchTimeout (g : SegId) (s : State) : Host.Outcome State Fault Refusal :=
  s.running fun s =>
    s.inRun g fun a =>
      if a.timing = none then s
      else (s.modSeg g fun v => v.seeLow false v.sda).stretchOut g (a.clockFalls (s.slot a.slot))

end Sys2Proof.Machine
end

