-- ==== Sys2Proof/Machine/Watch.lean ====
section
/-! DEFINITION. The commands of the bus monitor (R83 to R87, R89, R96, R97). -/
namespace Sys2Proof.Machine

/-- The engine's own repeated start is seen (R63); RESTART lasts until the clock is driven low (R68; log entry 11). -/
def State.meetRestart (s : State) (g : SegId) : State :=
  s.inRun g fun a =>
    if a.phase = .restart ∧ a.failure = none then s.setAttempt g { a with restarted := true } else s

/-- A running attempt meets a clock seen low: a start that has been made is over, and an abort turns to its stop where the
clock fell (R62, R63, R68, R80). -/
def State.meetClockLow (s : State) (g : SegId) (fell : Bool) : State :=
  s.inRun g fun a => s.setAttempt g (a.seesLow (s.slot a.slot) fell)

/-- MONITOR_START_SEEN (R84, R87, R89). -/
def execMonitorStartSeen (g : SegId) (s : State) : Host.Outcome State Fault Refusal :=
  s.running fun s =>
    (((s.modSeg g fun v => v.monitorStart.see true false).meetStart g).meetCondition g).meetRestart g

/-- MONITOR_STOP_SEEN (R84, R89, R99). In FREE a stop cannot occur. -/
def execMonitorStopSeen (g : SegId) (s : State) : Host.Outcome State Fault Refusal :=
  s.running fun s =>
    if (s.seg g).monitor = .free then s
    else (s.modSeg g fun v => (v.see true true).monitorStop).meetCondition g

/-- LINE_LOW: a line is seen low at a moment that is no part of a start (R84, R87, R101); with the clock low it may end START
or RESTART, or turn an abort to its stop (R68, R80). -/
def execLineLow (g : SegId) (l : Levels) (s : State) : Host.Outcome State Fault Refusal :=
  s.running fun s =>
    if l.clock = true ∧ l.data = true then s
    else
      let t := (s.modSeg g fun v => v.seeLow l.clock l.data).meetStart g
      if l.clock then t else t.meetClockLow g (s.seg g).scl

/-- BOTH_LINES_HIGH (R84, R85, R101). -/
def execBothLinesHigh (g : SegId) (s : State) : Host.Outcome State Fault Refusal :=
  s.running fun s => s.modSeg g fun v => (v.see true true).monitorHigh

/-- BUS_FREE_TIMER_EXPIRY: the monitor enters FREE (R84, R85). -/
def execBusFreeTimerExpiry (g : SegId) (s : State) : Host.Outcome State Fault Refusal :=
  s.running fun s =>
    if (s.seg g).busFreeTimer.isSome then s.modSeg g fun v => { v with busFreeTimer := none, monitor := .free }
    else s

/-- The first expiry of the busy-long timer in a BUSY period (R97). -/
def Seg.reportBusyLong (v : Seg) : Seg :=
  { v with
    busyLongReported := true
    counters := { v.counters with busyLongEvents := bump v.counters.busyLongEvents } }

/-- BUSY_LONG_TIMER_EXPIRY (R97). A stopped timer does not expire. -/
def execBusyLongTimerExpiry (g : SegId) (s : State) : Host.Outcome State Fault Refusal :=
  s.running fun s =>
    if (s.seg g).busyLongTimer.isSome then
      let t := s.setSeg g { s.seg g with busyLongTimer := none }
      if (s.seg g).busyLongReported then t
      else (t.setSeg g (t.seg g).reportBusyLong).noticeTo allPorts .busyLong (segCode g)
    else s

end Sys2Proof.Machine
end

