-- ==== Sys2Proof/Machine/Dispatch.lean ====
section
/-! DEFINITION. The meaning of each command: one arm per row of spec/opcode_table.json. -/
namespace Sys2Proof.Machine

/-- What a command does to everything but the queue of waiting commands. -/
def exec (i : Instr) (s : State) : Host.Outcome State Fault Refusal :=
  match i with
  | .deviceReset => Sys2Proof.Machine.execDeviceReset s
  | .deviceResetEnd a b => Sys2Proof.Machine.execDeviceResetEnd a b s
  | .characterReceived p c => Sys2Proof.Machine.execCharacterReceived p c s
  | .crcError p kind tag body crc => Sys2Proof.Machine.execCrcError p kind tag body crc s
  | .badverBadkindMessage p kind tag body => Sys2Proof.Machine.execBadverBadkindMessage p kind tag body s
  | .breakWatchEndsAtMark p => Sys2Proof.Machine.execBreakWatchEndsAtMark p s
  | .gapTimerExpiry p => Sys2Proof.Machine.execGapTimerExpiry p s
  | .breakRecognized p => Sys2Proof.Machine.execBreak p s
  | .breakEnd p => Sys2Proof.Machine.execBreakEnd p s
  | .messageTransmitted p => Sys2Proof.Machine.execMessageTransmitted p s
  | .txn p tag body => Sys2Proof.Machine.execTxn p tag body s
  | .cancel p tag body => Sys2Proof.Machine.execCancel p tag body s
  | .mapWrite p tag args => Sys2Proof.Machine.execMapWrite p tag args s
  | .mapRead p tag args => Sys2Proof.Machine.execMapRead p tag args s
  | .mapRetire p tag args => Sys2Proof.Machine.execMapRetire p tag args s
  | .portSet p tag args => Sys2Proof.Machine.execPortSet p tag args s
  | .portRead p tag args => Sys2Proof.Machine.execPortRead p tag args s
  | .segSet p tag args => Sys2Proof.Machine.execSegSet p tag args s
  | .segHold p tag args => Sys2Proof.Machine.execSegHold p tag args s
  | .segRelease p tag args => Sys2Proof.Machine.execSegRelease p tag args s
  | .segRecover p tag args => Sys2Proof.Machine.execSegRecover p tag args s
  | .segReset p tag args => Sys2Proof.Machine.execSegReset p tag args s
  | .statusRead p tag args => Sys2Proof.Machine.execStatusRead p tag args s
  | .restart p tag args => Sys2Proof.Machine.execRestart p tag args s
  | .choice g => Sys2Proof.Machine.execChoice g s
  | .openingStart g => Sys2Proof.Machine.execOpeningStart g s
  | .attemptEndsOk g => Sys2Proof.Machine.execAttemptEndsOk g s
  | .attemptEndsAddressNack g => Sys2Proof.Machine.execAttemptEndsAddressNack g s
  | .attemptEndsDataNack g => Sys2Proof.Machine.execAttemptEndsDataNack g s
  | .attemptEndsArbitrationLost g => Sys2Proof.Machine.execAttemptEndsArbitrationLost g s
  | .stretchTimeout g => Sys2Proof.Machine.execStretchTimeout g s
  | .attemptEndsAborted g => Sys2Proof.Machine.execAttemptEndsAborted g s
  | .retryTimerExpiry k => Sys2Proof.Machine.execRetryTimerExpiry k s
  | .lifetimeExpiry k => Sys2Proof.Machine.execLifetimeExpiry k s
  | .monitorStartSeen g => Sys2Proof.Machine.execMonitorStartSeen g s
  | .monitorStopSeen g => Sys2Proof.Machine.execMonitorStopSeen g s
  | .lineLow g l => Sys2Proof.Machine.execLineLow g l s
  | .bothLinesHigh g => Sys2Proof.Machine.execBothLinesHigh g s
  | .busFreeTimerExpiry g => Sys2Proof.Machine.execBusFreeTimerExpiry g s
  | .busyLongTimerExpiry g => Sys2Proof.Machine.execBusyLongTimerExpiry g s
  | .quietTimerExpiry g => Sys2Proof.Machine.execQuietTimerExpiry g s
  | .dataHeldTimerExpiry g => Sys2Proof.Machine.execDataHeldTimerExpiry g s
  | .clockHeldTimerExpiry g => Sys2Proof.Machine.execClockHeldTimerExpiry g s
  | .closingStopComplete g => Sys2Proof.Machine.execClosingStopComplete g s
  | .closingStopFails g how => Sys2Proof.Machine.execClosingStopFails g how s
  | .releasePulse g data => Sys2Proof.Machine.execReleasePulse g data s
  | .recoveryClockHeld g => Sys2Proof.Machine.execRecoveryClockHeld g s
  | .recoveryStopComplete g how => Sys2Proof.Machine.execRecoveryStopComplete g how s
  | .startBit p stands => Sys2Proof.Machine.execStartBit p stands s
  | .acknowledgeBitRead g data ninth => Sys2Proof.Machine.execAcknowledgeBitRead g data ninth s
  | .arbitrationLost g how => Sys2Proof.Machine.execArbitrationLost g how s
  | .mgmtBadop p tag body => Sys2Proof.Machine.execMgmtBadop p tag body s
  | .transmitterHeld p => Sys2Proof.Machine.execTransmitterHeld p s

end Sys2Proof.Machine
end

