-- ==== Sys2Proof/Machine/Send.lean ====
section
/-! DEFINITION. What the part sends on a port's line HTXn, bit by bit (R118, R119, R124, R130, R133). The table has no row
for a bit, so the bit time is an argument here (log entry 26). -/
namespace Sys2Proof.Machine

/-- The line level of a bit: mark for a 1, space for a 0 (R118). -/
def LineFormat.levelOf (f : LineFormat) (bit : Bool) : Bool := bit != f.inverted

/-- The data bits of a byte in the order of the line (R118). -/
def LineFormat.dataBits (f : LineFormat) (b : Byte) : List Bool :=
  (List.range 8).map fun k => if f.msbFirst then b.getMsbD k else b.getLsbD k

/-- The bits of a character as it is sent, one for each bit time (R118): the start bit, the data bits, the parity bit of a
format that has one, the stop bits. -/
def LineFormat.sentBits (f : LineFormat) (b : Byte) : List Bool :=
  false :: f.dataBits b ++ (if f.parity = .none then [] else [f.parityBit b]) ++ List.replicate f.stopBits true

/-- The levels of a frame on the line, one for each bit time: each character begins where the one before it ends (R119). -/
def LineFormat.sentLevels (f : LineFormat) (frame : List Byte) : List Bool :=
  frame.flatMap fun b => (f.sentBits b).map f.levelOf

/-- The level of HTXn in bit time `k` after the transmitter took its message up (R119). A transmitter that is finishing after
a break sends on to the end of the character in progress, which TRANSMITTER_HELD tells (R124). -/
def Port.htx (v : Port) (k : Nat) : Bool :=
  match v.tx with
  | .idle => v.txFormat.markLevel
  | .sending => (v.txFormat.sentLevels v.txFrame).getD k v.txFormat.markLevel
  | .finishing => (v.txFormat.sentLevels v.txFrame).getD k v.txFormat.markLevel
  | .held => v.txFormat.markLevel

/-- The level of a port's HTXn (R119); while RESETN is low it is at mark of normal polarity (R133). -/
def State.htx (s : State) (p : PortId) (k : Nat) : Bool :=
  if s.resetn then (s.port p).htx k else LineFormat.reset.markLevel

end Sys2Proof.Machine
end

