-- ==== Sys2Proof/Safety.lean ====
section
/-! DEFINITION. The terms that claims use: what a message does at its port, told field by field; and the invariants of
the part, what every state that a run reaches satisfies. -/
namespace Sys2Proof.Machine

/-! ## What a message does at its port -/

/-- The outgoing side has nothing left to begin: an IDLE transmitter has an empty queue (R160). -/
abbrev Port.Served (v : Port) : Prop := v.tx = .idle → v.queue = []

/-- The rest of a frame's characters can arrive at a port (R120, R123, R126, R136; log entry 3): the receiver takes
characters, and message assembly holds a proper first part of the frame, which may be empty, and is not hunting. -/
abbrev Port.Hears (v : Port) (frame : List Byte) : Prop :=
  v.receiver ≠ .breakWatch ∧ v.receiver ≠ .breakHold ∧ v.assembly.state ≠ .hunting ∧
    ∃ rest, rest ≠ [] ∧ v.assembly.buffer ++ rest = frame

/-- What a character judged good leaves at its port (R120 to R123): the line at mark, a start bit detectable, the space
timer stopped, the gap timer started. -/
def Port.quietened (v : Port) : Port :=
  { v with
    hrx := !v.format.inverted
    receiver := .ready
    spaceTimer := none
    gapTimer := some (v.format.gapTime * v.format.characterTime) }

/-- What a completed frame leaves at its port whatever its CRC (R137, R139). -/
def Port.framed (v : Port) : Port := { v.quietened with assembly := ⟨.idle, []⟩ }

/-- What a good message leaves at its port before its handler acts (R139, R144). -/
def Port.heard (v : Port) : Port :=
  { v.framed with counters := { v.counters with accepted := bump v.counters.accepted } }

/-- A good message has been handed on at a port (R144). -/
def State.heard (s : State) (p : PortId) : State := s.setPort p (s.port p).heard

/-- A short message is composed into a store entry and joins the tail of the queue (R159, R162); an IDLE transmitter
begins it at once (R160). -/
def Port.sends (v : Port) (e : StoreIx) (x : StoreEntry) : Port :=
  if v.tx = .idle then
    { v with
      store := v.store.set e.val (some { x with condition := .inTransmission }) e.isLt
      queue := v.queue ++ [.entry e]
      tx := .sending
      txFrame := x.frame }
  else
    { v with store := v.store.set e.val (some x) e.isLt, queue := v.queue ++ [.entry e] }

/-- A short message is sent on a port. -/
def State.sends (s : State) (p : PortId) (e : StoreIx) (x : StoreEntry) : State :=
  s.setPort p ((s.port p).sends e x)

/-- The RESULT of a slot joins the tail of the queue (R159); an IDLE transmitter begins it at once (R160). -/
def Port.queued (v : Port) (i : SlotId) (frame : List Byte) : Port :=
  if v.tx = .idle then { v with queue := v.queue ++ [.result i], tx := .sending, txFrame := frame }
  else { v with queue := v.queue ++ [.result i] }

/-- A notice is created for a port (R165). -/
def Port.noticed (v : Port) (kind : NoticeKind) (arg : Byte) : Port :=
  let x : StoreEntry := ⟨.notice, .ready, v.noticeSeq, [kind.code, arg], none, false⟩
  let u : Port := { v with noticeSeq := v.noticeSeq + 1 }
  match v.freeEntry with
  | some e => u.sends e x
  | none =>
    match v.oldestNotice with
    | some e => (u.dropNotice e).sends e x
    | none => { u with counters := { u.counters with noticesDropped := bump u.counters.noticesDropped } }

/-- A notice is created for a port whose mask selects its kind (R165). -/
def Port.noticedIf (v : Port) (kind : NoticeKind) (arg : Byte) : Port :=
  if kind.selected v.mask then v.noticed kind arg else v

/-- The composed entry of a REFUSE (R148, R151). -/
def refuseEntry (reason : Reason) (kind tag : Byte) : StoreEntry := ⟨.refuse, .ready, tag, [reason.code, kind], none, false⟩

/-- The composed entry of an MREPLY (R148, R154). -/
def mreplyEntry (tag op : Byte) (status : MgmtStatus) (reply : List Byte) : StoreEntry :=
  ⟨.mreply, .ready, tag, op :: status.code :: reply, none, false⟩

/-- The composed entry of a CANREPLY (R148, R152). -/
def canreplyEntry (tag : Byte) (o : CancelOutcome) (named : Byte) : StoreEntry :=
  ⟨.canreply, .ready, tag, [o.code, named], none, false⟩

/-- An outstanding recovery of the segment is answered at port `q` when `q` asked for it (R103, R107, R164). -/
def Port.recovered (v : Port) (q : PortId) (g : SegId) (r : Option Recovery) (status : MgmtStatus) : Port :=
  match r with
  | none => v
  | some r =>
    if r.port = q then
      match v.reservedEntry g with
      | some e => v.sends e (mreplyEntry r.tag opSegRecover status [])
      | none => v
    else v

/-- The record of a request answered with a result (R21, R31, R36): its timers are stopped. -/
def Slot.answered (r : Slot) (res : Result) : Slot :=
  { r with state := .answer, result := some res, lifetimeTimer := none, retryTimer := none }

/-- The RESULTs of several slots join the tail of the queue in order. -/
def Port.queuedAll (v : Port) (l : List SlotId) (frame : SlotId → List Byte) : Port :=
  l.foldl (fun v i => v.queued i (frame i)) v

/-- An IDLE transmitter takes up the head of its queue, or stays IDLE (R160, R161). `frame` gives the RESULT frame of a
slot. -/
def Port.takesUp (v : Port) (frame : SlotId → List Byte) : Port :=
  match v.queue with
  | [] => v
  | .result i :: _ => { v with tx := .sending, txFrame := frame i }
  | .entry e :: _ =>
    match v.store[e] with
    | some x =>
      { v with
        store := v.store.set e.val (some { x with condition := .inTransmission }) e.isLt
        tx := .sending
        txFrame := x.frame }
    | none => { v with tx := .sending, txFrame := [] }

/-- A character error at a port (R121, R122, R140): counted, any frame abandoned and counted, assembly hunting, the gap
timer started; a start bit is detectable at once only when the line stands at mark. -/
def Port.errored (v : Port) (atMark : Bool) : Port :=
  { v with
    hrx := atMark != v.format.inverted
    receiver := if atMark then .ready else .waitMark
    spaceTimer := none
    gapTimer := some (v.format.gapTime * v.format.characterTime)
    assembly := ⟨.hunting, []⟩
    counters := { v.counters with
      characterErrors := bump v.counters.characterErrors
      abandoned := if v.assembly.state = .receiving then bump v.counters.abandoned else v.counters.abandoned } }

/-- A format that comes into force at a switch point outside break hold (R130): both directions take it, the character
being received and any frame are dropped, the frame counted, assembly hunts, and the gap timer starts at the new format's
length; the space timer runs on. A transmitter finishing a character after a break takes the format at its end (R124). -/
def Port.switched (v : Port) (f : LineFormat) : Port :=
  { v with
    format := f
    txFormat := if v.tx = .finishing then v.txFormat else f
    pendingSwitch := none
    receiver := .waitMark
    assembly := ⟨.hunting, []⟩
    gapTimer := some (f.gapTime * f.characterTime)
    counters := { v.counters with
      abandoned := if v.assembly.state = .receiving then bump v.counters.abandoned else v.counters.abandoned } }

/-- A format that comes into force in break hold (R126, R130). -/
def Port.reformatted (v : Port) (f : LineFormat) : Port :=
  { v with format := f, txFormat := if v.tx = .finishing then v.txFormat else f, pendingSwitch := none }

/-! ## A break (R39, R124, R126, R168) -/

/-- The port of a recognized break, in break hold: any frame abandoned and counted, assembly idle also where it was
hunting (log entry 38), queue and store empty, a message being sent cut at the end of its character, any pending switch
applied. -/
def Port.broken (v : Port) : Port :=
  { v with
    format := (v.pendingSwitch.map PendingSwitch.format).getD v.format
    txFormat := if v.tx = .sending ∨ v.tx = .finishing then v.txFormat else
      (v.pendingSwitch.map PendingSwitch.format).getD v.txFormat
    pendingSwitch := none
    hrx := v.format.inverted
    receiver := .breakHold
    spaceTimer := none
    gapTimer := none
    assembly := ⟨.idle, []⟩
    tx := if v.tx = .sending ∨ v.tx = .finishing then .finishing else .held
    queue := []
    store := Vector.replicate 6 none
    counters := { v.counters with
      abandoned := if v.assembly.state = .receiving then bump v.counters.abandoned else v.counters.abandoned } }

/-- A port restart of `p` at one request record (R39). -/
def Slot.broken (r : Slot) (p : PortId) : Slot :=
  if r.owner = p then (if r.state = .active then { r with orphan := true } else Slot.cleared) else r

/-- A port restart of `p` at one segment (R58, R112). -/
def Seg.broken (v : Seg) (p : PortId) (owner : SlotId → PortId) : Seg :=
  { v with
    list := v.list.filter fun i => decide (owner i ≠ p)
    recovery := if v.recovery.map Recovery.port = some p then none else v.recovery }

/-- The part after a break is recognized on a port, while the line stays at space. -/
def State.broken (s : State) (p : PortId) : State :=
  { s with
    slots := Vector.ofFn fun i => (s.slot i).broken p
    segA := s.segA.broken p fun i => (s.slot i).owner
    segB := s.segB.broken p fun i => (s.slot i).owner
    ports := s.ports.set p.val (s.port p).broken p.isLt }

/-! ## Segments -/

/-- The state with every port replaced. -/
def State.withPorts (s : State) (f : PortId → Port) : State := { s with ports := Vector.ofFn f }

/-- The state with every slot replaced. -/
def State.withSlots (s : State) (f : SlotId → Slot) : State := { s with slots := Vector.ofFn f }

/-- Two segments agree in everything but the timers that levels and states drive (R96, R101). -/
def Seg.AgreesButTimers (v w : Seg) : Prop :=
  v = { w with
    quietTimer := v.quietTimer
    dataHeldTimer := v.dataHeldTimer
    clockHeldTimer := v.clockHeldTimer
    busyLongTimer := v.busyLongTimer }

/-- The timers that levels and states drive have followed a change from `v` to `w` (R96, R101): each runs just while its
condition holds, keeps on when it held before, and else starts from its full length in the timing in force. -/
def Seg.TimersFollow (v w : Seg) : Prop :=
  let quiet := fun (x : Seg) => x.engine = .check false ∧ x.scl = true ∧ x.sda = true
  let dataHeld := fun (x : Seg) => x.engine = .check false ∧ x.scl = true ∧ x.sda = false
  let clockHeld := fun (x : Seg) => x.engine = .check false ∧ x.scl = false
  let busyLong := fun (x : Seg) => x.monitor = .busy ∧ x.engine.isRun = false ∧ x.inForce.busyLongLimit ≠ 0
  w.quietTimer = (if quiet w then if quiet v then v.quietTimer else some w.inForce.busFreeWait else none) ∧
  w.dataHeldTimer = (if dataHeld w then if dataHeld v then v.dataHeldTimer else some 1 else none) ∧
  w.clockHeldTimer = (if clockHeld w then if clockHeld v then v.clockHeldTimer else some w.inForce.stretchTimeout else none) ∧
  w.busyLongTimer = (if busyLong w then if busyLong v then v.busyLongTimer else some w.inForce.busyLongLimit else none)

/-- A segment `v` has become `x`: `x` is `w` but for the timers that levels and states drive, and these have followed the
change (R96, R101). -/
def Seg.Becomes (v w x : Seg) : Prop := x.AgreesButTimers w ∧ v.TimersFollow x

/-- A line is seen low that is no part of a start (R84): in FREE and SETTLING the monitor is SETTLING with its bus-free
timer stopped. -/
def Seg.lowSeen (v : Seg) (scl sda : Bool) : Seg :=
  { v with
    scl := scl
    sda := sda
    monitor := if v.monitor = .busy then .busy else .settling
    busFreeTimer := if v.monitor = .busy then v.busFreeTimer else none }

/-- A stop is seen (R84, R99): SETTLING with the bus-free timer at its full length, and stop owed cleared. -/
def Seg.stopSeen (v : Seg) : Seg :=
  { v with
    scl := true
    sda := true
    monitor := .settling
    busFreeTimer := some v.inForce.busFreeWait
    stopOwed := false }

/-- A start is seen (R84): BUSY, a new BUSY period unless the monitor was BUSY. -/
def Seg.startSeen (v : Seg) : Seg :=
  { v with
    scl := true
    sda := false
    monitor := .busy
    busFreeTimer := if v.monitor = .settling then none else v.busFreeTimer
    busyLongReported := if v.monitor = .busy then v.busyLongReported else false }

/-- Entry into RECOVER (R104): the pulse count 0, the recovery counted, the first pulse begun. -/
def Seg.recovering (v : Seg) : Seg :=
  { v.lowSeen false v.sda with
    engine := .recover false
    pulseCount := 0
    counters := { v.counters with recoveries := bump v.counters.recoveries } }

/-- Entry into CHECK (R86, R100), its timers apart. -/
def Seg.checking (v : Seg) : Seg := { v with engine := .check false, inForce := v.setup.timing }

/-- The state in which a request is answered (R21, R31, R36, R159): its record answered, its RESULT at the tail of its
owner's queue. -/
def State.answered (s : State) (i : SlotId) (r : Slot) (res : Result) : State :=
  (s.setSlot i (r.answered res)).setPort r.owner
    ((s.port r.owner).queued i (r.answered res).resultFrame)

/-- A request stands in its list again at the place its admission gives it (R32, R41): behind every older request, ahead of
every younger one. -/
def State.Returned (s t : State) (i : SlotId) (r : Slot) : Prop :=
  ∃ older younger, (s.seg r.snapshot.segment).list = older ++ younger ∧
    (∀ j ∈ older, (s.slot j).admission < r.admission) ∧ (∀ j ∈ younger, r.admission < (s.slot j).admission) ∧
    t = (s.setSlot i r).setSeg r.snapshot.segment
      { s.seg r.snapshot.segment with list := older ++ i :: younger }

/-- A running attempt past the clock seen low outside the bits of a byte (R62, R63, R68, R80): an abort is at its stop, and
START and RESTART are over once their start has been made. -/
def Attempt.past (a : Attempt) (r : Slot) : Attempt :=
  if a.failure.map Failure.kind = some .aborted ∧ a.phase ≠ .stop then
    { a with phase := .stop, restarted := false, bytePos := 0 }
  else if a.phase = .start ∧ a.timing ≠ none ∨ a.phase = .restart ∧ a.restarted = true then
    { a with phase := r.nextPhase a.phase, restarted := false, bytePos := 0 }
  else a

/-- The end of a running attempt as the engine sees it (R77): the pool has made its transition for the first failure `f`,
and the segment is `v`, its list as the pool left it. -/
def State.Ended (s t : State) (g : SegId) (a : Attempt) (f : Option Failure) (v : Seg) : Prop :=
  t = (s.settle a f).setSeg g (t.seg g) ∧
    (s.seg g).Becomes { v with list := ((s.settle a f).seg g).list } (t.seg g)

/-- The entry into FAULT (R54, R107): every request of the list answered SEGFAULT in list order, then an outstanding recovery
FAILED, then the SEG_FAULT notices. `v` is the segment as its lines are then seen. -/
def State.Faulted (s t : State) (g : SegId) (v : Seg) : Prop :=
  let res : Result := ⟨.segfault, .none, 0, []⟩
  t = ((s.withSlots fun i => if i ∈ (s.seg g).list then (s.slot i).answered res else s.slot i).withPorts fun q =>
      (((s.port q).queuedAll ((s.seg g).list.filter fun i => decide ((s.slot i).owner = q))
        fun i => ((s.slot i).answered res).resultFrame).recovered q g (s.seg g).recovery .failed).noticedIf .segFault
          (segCode g)).setSeg g (t.seg g) ∧
    (s.seg g).Becomes { v with engine := .fault, readyOwed := true, list := [], recovery := none } (t.seg g)

/-- The entry into IDLE from CHECK (R103): an outstanding recovery answered DONE, then, with ready owed, the SEG_READY
notices. `v` is the segment as its lines are then seen. -/
def State.Idled (s t : State) (g : SegId) (v : Seg) : Prop :=
  t = (s.withPorts fun q =>
      let w := (s.port q).recovered q g (s.seg g).recovery .done
      if (s.seg g).readyOwed then w.noticedIf .segReady (segCode g) else w).setSeg g (t.seg g) ∧
    (s.seg g).Becomes { v with engine := .idle, recovery := none, readyOwed := false } (t.seg g)

/-! ## Characters as a host sends them -/

/-- The data bits of a byte in the order of the line, each at its level (R118). -/
def LineFormat.dataLevels (f : LineFormat) (b : Byte) : Byte :=
  let bits := if f.msbFirst then b.reverse else b
  if f.inverted then ~~~bits else bits

/-- A byte as a character on the line (R118): its data bits in the port's bit order, the parity bit that makes the
number of 1 bits even or odd, and stop bits at mark. -/
def LineFormat.character (f : LineFormat) (b : Byte) : RxChar where
  data := f.dataLevels b
  parity := f.levelOf (decide (onesIn b % 2 = if f.parity = .odd then 0 else 1))
  stop1 := f.levelOf true
  stop2 := f.levelOf true

/-- The number of 1 bits among the data bits and the parity bit of a character, as they were sampled (R118). -/
def LineFormat.onesSampled (f : LineFormat) (c : RxChar) : Nat :=
  ((List.range 8).filter fun k => c.data.getLsbD k != f.inverted).length + (c.parity != f.inverted).toNat

/-- A byte sent to a port: its start bit stands, and its character ends (R120, R121). -/
def byteCommands (p : PortId) (f : LineFormat) (b : Byte) : List Instr :=
  [.startBit p true, .characterReceived p (f.character b)]

/-- The port, frame tag and body of a MGMT that a command spells (R147, R154); MGMT_BADOP spells only the bodies that name
no operation. -/
def mgmtOf : Instr → Option (PortId × Byte × List Byte)
  | .mapWrite p tag args => some (p, tag, opMapWrite :: args)
  | .mapRead p tag args => some (p, tag, opMapRead :: args)
  | .mapRetire p tag args => some (p, tag, opMapRetire :: args)
  | .portSet p tag args => some (p, tag, opPortSet :: args)
  | .portRead p tag args => some (p, tag, opPortRead :: args)
  | .segSet p tag args => some (p, tag, opSegSet :: args)
  | .segHold p tag args => some (p, tag, opSegHold :: args)
  | .segRelease p tag args => some (p, tag, opSegRelease :: args)
  | .segRecover p tag args => some (p, tag, opSegRecover :: args)
  | .segReset p tag args => some (p, tag, opSegReset :: args)
  | .statusRead p tag args => some (p, tag, opStatusRead :: args)
  | .restart p tag args => some (p, tag, opRestart :: args)
  | .mgmtBadop p tag body => if mgmtNamed body then none else some (p, tag, body)
  | _ => none

/-- The port, kind byte, tag and body of a host message whose reply needs room in the store before it is judged or when
its refusal is composed (R163): a CANCEL, a MGMT, a message of a wrong version or kind. -/
def gatedOf : Instr → Option (PortId × Byte × Byte × List Byte)
  | .cancel p tag body => some (p, kindCancel, tag, body)
  | .badverBadkindMessage p kind tag body => if kindAccepted kind then none else some (p, kind, tag, body)
  | c => (mgmtOf c).map fun m => (m.1, kindMgmt, m.2)

/-- The number of argument bytes of an operation (R154). -/
def argumentCount (op : Byte) : Nat :=
  if op = opMapWrite then 18
  else if op = opMapRetire ∨ op = opStatusRead then 2
  else if op = opPortSet then 11
  else if op = opSegSet then 5
  else if op = opRestart then 0
  else 1

/-- The command that a completed frame spells (R134, R139, R144, R147): every frame of at most 200 body bytes is one row
of the table. -/
def messageCommand (p : PortId) (kind tag : Byte) (body : List Byte) (crc : BitVec 16) : Instr :=
  if crcOf (covered kind tag body) ≠ crc then .crcError p kind tag body crc
  else if kind = kindTxn then .txn p tag body
  else if kind = kindCancel then .cancel p tag body
  else if kind = kindMgmt then
    match body with
    | [] => .mgmtBadop p tag []
    | op :: args =>
      if op = opMapWrite then .mapWrite p tag args
      else if op = opMapRead then .mapRead p tag args
      else if op = opMapRetire then .mapRetire p tag args
      else if op = opPortSet then .portSet p tag args
      else if op = opPortRead then .portRead p tag args
      else if op = opSegSet then .segSet p tag args
      else if op = opSegHold then .segHold p tag args
      else if op = opSegRelease then .segRelease p tag args
      else if op = opSegRecover then .segRecover p tag args
      else if op = opSegReset then .segReset p tag args
      else if op = opStatusRead then .statusRead p tag args
      else if op = opRestart then .restart p tag args
      else .mgmtBadop p tag (op :: args)
  else .badverBadkindMessage p kind tag body

/-- The body of a TXN after target index, operation and flags: the fields it carries, in the order of R149. -/
def TxnFields.layout (f : TxnFields) (width : Nat) : List Byte :=
  (match f.lifetime with | some n => bytes16 n | none => []) ++
    (match f.subAddress with | some a => if width = 1 then [byte a] else bytes16 a | none => []) ++
    (match f.readLength with | some n => [byte n] | none => []) ++ f.writeData

/-- The fields of a TXN agree with its operation and the entry's sub-address width (R20, R26, R149). -/
def TxnFields.Agrees (f : TxnFields) (op : Operation) (width : Nat) : Prop :=
  (∀ n, f.lifetime = some n → 1 ≤ n ∧ n ≤ 65535) ∧
  (f.subAddress.isSome = true ↔ width ≠ 0 ∧ op ≠ .probe) ∧
  (∀ a, f.subAddress = some a → a < 256 ^ width) ∧
  (f.readLength.isSome = true ↔ op = .read ∨ op = .xfer) ∧
  (∀ n, f.readLength = some n → 1 ≤ n ∧ n ≤ 255) ∧
  (op = .read ∨ op = .probe → f.writeData = []) ∧
  (op = .write → f.writeData ≠ [])

/-- Commands run one after another; a stop ends the run. -/
def execAll : List Instr → State → Host.Outcome State Fault Refusal
  | [], s => .next s
  | c :: rest, s =>
    match exec c s with
    | .next t => execAll rest t
    | .fault r => .fault r
    | .refused r => .refused r

/-- The code of an operation in a TXN body (R149). -/
def Operation.code : Operation → Byte
  | .read => 1
  | .write => 2
  | .xfer => 3
  | .probe => 4

/-- The port stands in the permission sets that the operation needs (R10). -/
def TxnFields.Permitted (f : TxnFields) (e : MapEntry) (p : PortId) (op : Operation) : Prop :=
  (op = .read ∨ op = .probe ∨ op = .xfer → hasPort e.readPorts p = true) ∧
    (op = .write ∨ op = .xfer ∧ f.writeData ≠ [] → hasPort e.writePorts p = true)

/-- The bytes a request touches, from its sub-address on, lie in the entry's window (R8). -/
def TxnFields.InWindow (f : TxnFields) (e : MapEntry) : Prop :=
  ∀ a, f.subAddress = some a →
    e.windowLow ≤ a ∧ a + max (max 1 f.writeData.length) (f.readLength.getD 1) - 1 ≤ e.windowHigh

/-- Neither length is above the maximum transfer (R9). -/
def TxnFields.Short (f : TxnFields) (e : MapEntry) : Prop :=
  f.writeData.length ≤ e.maxTransfer ∧ ∀ n, f.readLength = some n → n ≤ e.maxTransfer

/-- The entry record of an entry, byte by byte (R155). -/
def MapEntry.layout (x : MapEntry) : List Byte :=
  [if x.segment = .A then 0 else 1, if x.form = .sevenBit then 0 else 1, byte (x.address / 256), byte x.address,
    byte x.subWidth, byte (x.windowLow / 256), byte x.windowLow, byte (x.windowHigh / 256), byte x.windowHigh,
    byte x.maxTransfer, x.readPorts.setWidth 8, x.writePorts.setWidth 8, byte x.priority, byte x.retryLimit,
    byte x.retryInterval, if x.speed = .standard then 0 else 1, byte x.slowDown]

/-- The line format record of a format, byte by byte (R156). -/
def LineFormat.layout (f : LineFormat) : List Byte :=
  [byte (f.divisor / 256), byte f.divisor, match f.parity with | .none => 0 | .even => 1 | .odd => 2,
    byte f.stopBits, if f.inverted then 1 else 0, if f.msbFirst then 1 else 0, byte f.gapTime, byte f.breakThreshold]

/-! ## The arrival of a message -/

/-- A good message completes on a port that has served its queue (R139, R144): what every host message needs to be handed
on. -/
structure State.Arrives (s : State) (p : PortId) (kind tag : Byte) (body : List Byte) : Prop where
  running : s.resetn = true
  fits : body.length ≤ 200
  hears : (s.port p).Hears (frameOf kind tag body)
  served : (s.port p).Served

/-- A MGMT from a manager completes, and the gate takes the free entry `e` for its reply (R147, R163). -/
structure State.Manages (s : State) (p : PortId) (tag : Byte) (body : List Byte) (e : StoreIx) : Prop where
  arrives : s.Arrives p kindMgmt tag body
  entry : (s.port p).freeEntry = some e
  manager : hasPort s.managers p = true

/-- The state after a MGMT whose only effect is its MREPLY (R154, R173). -/
def State.replied (s : State) (p : PortId) (e : StoreIx) (tag op : Byte) (status : MgmtStatus) (reply : List Byte) :
    State :=
  (s.heard p).sends p e (mreplyEntry tag op status reply)

/-! ## Eligibility (R43) -/

/-- One request stands ahead of another in a list. -/
def Ahead (l : List SlotId) (j i : SlotId) : Prop := ∃ a b c, l = a ++ j :: b ++ i :: c

/-- The three conditions of R43. -/
def State.IsEligible (s : State) (g : SegId) (i : SlotId) : Prop :=
  i ∈ (s.seg g).list ∧ (s.slot i).state = .pending ∧ (s.seg g).held = false ∧
    ∀ j, Ahead (s.seg g).list j i → ¬((s.slot j).owner = (s.slot i).owner ∧ (s.slot j).target = (s.slot i).target)

/-- The effective priority of a request (R45). -/
def Slot.rank (r : Slot) : Nat := if r.passedOver < 4 then r.snapshot.priority else 4

/-- The segment that an event of the schedulers, engines and monitors names. -/
def segmentOf : Instr → Option SegId
  | .choice g => some g
  | .openingStart g => some g
  | .attemptEndsOk g => some g
  | .attemptEndsAddressNack g => some g
  | .attemptEndsDataNack g => some g
  | .attemptEndsArbitrationLost g => some g
  | .stretchTimeout g => some g
  | .attemptEndsAborted g => some g
  | .monitorStartSeen g => some g
  | .monitorStopSeen g => some g
  | .lineLow g _ => some g
  | .bothLinesHigh g => some g
  | .busFreeTimerExpiry g => some g
  | .busyLongTimerExpiry g => some g
  | .quietTimerExpiry g => some g
  | .dataHeldTimerExpiry g => some g
  | .clockHeldTimerExpiry g => some g
  | .closingStopComplete g => some g
  | .closingStopFails g _ => some g
  | .releasePulse g _ => some g
  | .recoveryClockHeld g => some g
  | .recoveryStopComplete g _ => some g
  | .acknowledgeBitRead g _ _ => some g
  | .arbitrationLost g _ => some g
  | _ => none

/-! ## Invariants -/

/-- The timers of a segment follow the levels it sees (R84, R85, R96, R101): the bus-free timer runs exactly while the
monitor is SETTLING and both lines are high, each check timer exactly while the engine observes the lines in CHECK and
they stand at its levels, the busy-long timer only while R96's conditions hold; and in FREE both lines are high. -/
structure Seg.TimersFit (v : Seg) : Prop where
  free : v.monitor = .free → v.scl = true ∧ v.sda = true
  busFree : v.busFreeTimer.isSome = true ↔ v.monitor = .settling ∧ v.scl = true ∧ v.sda = true
  quiet : v.quietTimer.isSome = true ↔ v.engine = .check false ∧ v.scl = true ∧ v.sda = true
  dataHeld : v.dataHeldTimer.isSome = true ↔ v.engine = .check false ∧ v.scl = true ∧ v.sda = false
  clockHeld : v.clockHeldTimer.isSome = true ↔ v.engine = .check false ∧ v.scl = false
  busyLong : v.busyLongTimer.isSome = true → v.monitor = .busy ∧ v.engine.isRun = false ∧ v.inForce.busyLongLimit ≠ 0

/-- No timer of a segment runs (R115). -/
def Seg.TimersStopped (v : Seg) : Prop :=
  v.busFreeTimer = none ∧ v.quietTimer = none ∧ v.dataHeldTimer = none ∧ v.clockHeldTimer = none ∧
    v.busyLongTimer = none ∧ v.monitor ≠ .free

/-- Every segment's timers follow its lines; while RESETN is low none runs (R115). -/
def State.TimersFit (s : State) : Prop :=
  if s.resetn then ∀ g, (s.seg g).TimersFit else ∀ g, (s.seg g).TimersStopped

/-- A valid map entry is in the ranges of R3 and R4. -/
def State.MapFits (s : State) : Prop := ∀ t, (s.mapEntry t).valid = true → (s.mapEntry t).inRange = true

/-- At least one port holds the management privilege (R171). -/
def State.Managed (s : State) : Prop := ∃ p, hasPort s.managers p = true

/-- The health record of a segment fits its engine (R99, R103, R105, R107, R109): a pulse count of at most 9, less than 9
while a pulse is made; ready owed in neither IDLE nor RUN; a recovery outstanding only in CHECK or RECOVER. -/
structure Seg.HealthFits (v : Seg) : Prop where
  pulses : v.pulseCount ≤ Config.pulseLimit
  pulsing : v.engine = .recover false → v.pulseCount < Config.pulseLimit
  ready : v.readyOwed = true → v.engine ≠ .idle ∧ v.engine.isRun = false
  outstanding : v.recovery.isSome = true → (∃ b, v.engine = .check b) ∨ (∃ b, v.engine = .recover b)

/-- The line side of a port (R119 to R127, R136): a buffer that fits the assembly state, gap and space timers that fit
the receiver, a transmitter HELD only in break hold, and nothing being sent there. That assembly is idle in break hold
is the model's choice where it was hunting before (log entry 38). -/
structure Port.LineFits (v : Port) : Prop where
  buffer : v.assembly.state ≠ .receiving → v.assembly.buffer = []
  lead : v.assembly.state = .receiving → v.assembly.buffer.head? = some leadByte ∧ v.assembly.buffer.length ≤ 205
  length : ∀ n, v.assembly.buffer[3]? = some n → n.toNat ≤ 200 ∧ v.assembly.buffer.length < n.toNat + 6
  gap : v.gapTimer.isSome = true → v.receiver = .waitMark ∨ v.receiver = .ready
  space : v.spaceTimer.isSome = true → v.receiver = .inCharacter ∨ v.receiver = .breakWatch ∨ v.receiver = .waitMark
  watch : v.receiver = .inCharacter ∨ v.receiver = .breakWatch → v.spaceTimer.isSome = true
  hold : v.receiver = .breakHold → v.assembly = ⟨.idle, []⟩ ∧ (v.tx = .held ∨ v.tx = .finishing)
  held : v.tx = .held → v.receiver = .breakHold
  served : v.Served

/-- The store and the entries of the queue of one port (R158, R160, R162): each composed entry stands in the queue once,
a reserved one does not; a transmitter that is SENDING has a head item, and exactly the head entry is in transmission;
a pending switch has its switch point to come (R129). -/
structure Port.StoreFits (v : Port) : Prop where
  counted : ∀ e : StoreIx, v.queue.count (.entry e) =
    if (v.store[e].map fun x => decide (x.condition ≠ .reserved)) = some true then 1 else 0
  sending : v.tx = .sending → v.queue ≠ []
  head : ∀ e : StoreIx, (v.store[e].map StoreEntry.condition = some .inTransmission) ↔
    (v.tx = .sending ∧ v.queue.head? = some (.entry e))
  reserved : ∀ (e : StoreIx) (x : StoreEntry), v.store[e] = some x →
    (x.condition = .reserved ↔ x.reservedFor.isSome = true)
  switch : ∀ w, v.pendingSwitch = some w →
    match w.point with
    | .messageSent => v.tx = .sending
    | .replySent e => ∃ x, v.store[e] = some x ∧ x.kind = .mreply ∧ x.condition ≠ .reserved

/-- Every port's store and line fit, and the entries reserved for recoveries are those of the outstanding recoveries,
one for each (R162, R164). -/
structure State.StoresFit (s : State) : Prop where
  lines : ∀ p, (s.port p).LineFits
  stores : ∀ p, (s.port p).StoreFits
  health : ∀ g, (s.seg g).HealthFits
  asked : ∀ (p : PortId) (e : StoreIx) (x : StoreEntry) (g : SegId), (s.port p).store[e] = some x → x.reservedFor = some g →
    (s.seg g).recovery.map Recovery.port = some p
  kept : ∀ g r, (s.seg g).recovery = some r → ((s.port r.port).reservedEntry g).isSome = true
  once : ∀ (p : PortId) (e f : StoreIx) (x y : StoreEntry), (s.port p).store[e] = some x → (s.port p).store[f] = some y →
    x.reservedFor.isSome = true → x.reservedFor = y.reservedFor → e = f

/-- One request record fits its state (R22, R21, R30, R48, R49). -/
structure Slot.Fits (r : Slot) : Prop where
  free : r.state = .free → r = Slot.cleared
  orphan : r.orphan = true → r.state = .active
  result : r.result.isSome = true ↔ r.state = .answer
  retry : r.retryTimer.isSome = true ↔ r.state = .deferred
  lifetime : r.lifetimeTimer.isSome = true → r.waiting = true ∨ r.state = .active
  deadline : r.deadlinePassed = true → r.waiting = false

/-- The slot pool, the pending lists, the engines and the queues agree (R22 to R24, R30, R41, R54, R158). -/
structure State.PoolFits (s : State) : Prop where
  slots : ∀ i, (s.slot i).Fits
  numbered : ∀ i, (s.slot i).occupied = true → (s.slot i).admission < s.nextAdmission
  distinct : ∀ i j, (s.slot i).occupied = true → (s.slot j).occupied = true →
    (s.slot i).admission = (s.slot j).admission → i = j
  listed : ∀ g i, i ∈ (s.seg g).list ↔ (s.slot i).waiting = true ∧ (s.slot i).snapshot.segment = g
  aged : ∀ g, (s.seg g).list.Pairwise fun i j => (s.slot i).admission < (s.slot j).admission
  running : ∀ g a, (s.seg g).engine = .run a →
    (s.slot a.slot).state = .active ∧ (s.slot a.slot).snapshot.segment = g
  active : ∀ i, (s.slot i).state = .active →
    ∃ a, (s.seg (s.slot i).snapshot.segment).engine = .run a ∧ a.slot = i
  down : ∀ g, (s.seg g).engine.down = true → (s.seg g).list = []
  queued : ∀ p i, (s.port p).queue.count (.result i) =
    if (s.slot i).state = .answer ∧ (s.slot i).owner = p then 1 else 0
  window : ∀ p, s.occupied p ≤ Config.window
  tags : ∀ i j, (s.slot i).live = true → (s.slot j).live = true → (s.slot i).owner = (s.slot j).owner →
    (s.slot i).tag = (s.slot j).tag → i = j

/-- The optional fields of a request fit one row of R20's table. -/
def Slot.FieldsFit (r : Slot) : Prop :=
  (r.subAddress.isSome = true ↔ r.snapshot.subWidth ≠ 0 ∧ r.operation ≠ .probe) ∧
  match r.operation with
  | .read => r.writeData = [] ∧ 1 ≤ r.readLength.getD 0
  | .write => r.writeData ≠ [] ∧ r.readLength = none
  | .xfer => 1 ≤ r.readLength.getD 0
  | .probe => r.writeData = [] ∧ r.readLength = none

/-- The counts of a request (R19, R32, R33, R46, R78): retries within the snapshot's limit, at most 8 losses, and fewer
while the request is not answered; attempts no more than the deferrals and losses that ended them, and one more for a
running or a last attempt; so never more than 15. -/
structure Slot.CountsFit (r : Slot) (opened : Bool) : Prop where
  limit : r.snapshot.retryLimit ≤ 7
  retries : r.retriesUsed ≤ r.snapshot.retryLimit
  losses : r.losses ≤ Config.lossLimit
  losing : r.state ≠ .answer → r.losses < Config.lossLimit
  passed : r.passedOver ≤ Config.promotion
  attempts : r.attempts ≤ r.retriesUsed + r.losses +
    (if r.state = .answer ∧ r.losses < Config.lossLimit ∨ r.state = .active ∧ opened = true then 1 else 0)

/-- What a running attempt has moved fits its phase and its request (R67, R71, R72). `none` as first failure and the
phases before WRITE mean nothing written; in WRITE and READ the byte position counts the bytes moved; past them all have
been. -/
structure Attempt.Fits (a : Attempt) (r : Slot) : Prop where
  phase : a.phase ∈ r.phases
  written : a.written ≤ r.writeData.length
  opened : a.timing = none → a.phase = .start ∧ a.failure = none
  restarted : a.restarted = true → a.phase = .restart
  followed : a.following = true → a.failure.map Failure.kind = some .arbitrationLost ∧ a.phase ≠ .start
  failed : ∀ f, a.failure = some f → f.kind = .aborted ∨ a.following = true ∨
    a.phase = .stop ∧ (f.kind = .addressNack ∨ f.kind = .dataNack)
  early : a.phase = .start ∨ a.phase = .address ∨ a.phase = .subAddress → a.written = 0 ∧ a.readData = []
  writing : a.failure = none → a.phase = .write → a.written = a.bytePos ∧ a.bytePos < r.writeData.length ∧ a.readData = []
  turning : a.failure = none → a.phase = .restart ∨ a.phase = .addressRead →
    a.written = r.writeData.length ∧ a.readData = []
  reading : a.failure = none → a.phase = .read →
    a.written = r.writeData.length ∧ a.readData.length = a.bytePos ∧ a.bytePos < r.readLength.getD 0
  stopping : a.failure = none → a.phase = .stop →
    a.written = r.writeData.length ∧ a.readData.length = r.readLength.getD 0

/-- A result fits its request (R21, R150): OK means every byte moved; otherwise no read data; and a status of the scheduler
carries where 0 and written count 0. -/
structure Result.Fits (res : Result) (r : Slot) : Prop where
  written : res.written ≤ r.writeData.length
  ok : res.status = .ok → res.place = .none ∧ res.written = r.writeData.length ∧
    res.readData.length = r.readLength.getD 0
  failed : res.status ≠ .ok → res.readData = []
  scheduler : res.status = .segfault ∨ res.status = .cancelled ∨ res.status = .expired ∨ res.status = .retired →
    res.place = .none ∧ res.written = 0

/-- The engine of the request's segment has opened an attempt for it. -/
def State.opened (s : State) (i : SlotId) : Bool :=
  match (s.seg (s.slot i).snapshot.segment).engine with
  | .run a => a.timing.isSome
  | _ => false

/-- Requests, running attempts and results fit together (R20, R21, R67, R78). -/
structure State.TransfersFit (s : State) : Prop where
  fields : ∀ i, (s.slot i).occupied = true → (s.slot i).FieldsFit
  counts : ∀ i, (s.slot i).occupied = true → (s.slot i).CountsFit (s.opened i)
  attempts : ∀ g a, (s.seg g).engine = .run a → a.Fits (s.slot a.slot)
  results : ∀ i res, (s.slot i).result = some res → res.Fits (s.slot i)

/-- Everything the manual says of the part between two events, gathered. -/
structure State.Legal (s : State) : Prop where
  timers : s.TimersFit
  map : s.MapFits
  managed : s.Managed
  stores : s.StoresFit
  pool : s.PoolFits
  transfers : s.TransfersFit

end Sys2Proof.Machine
end

