-- ==== Sys2Proof/Certificates/Slice0/Obligations.lean ====
section
/-! DEFINITION. The statements for the provers. The terms they use stand in Sys2Proof/Safety.lean; each docstring names the
rules of spec/ that its statement formalises. A next state is told as an equation where it can be, which is its frame. -/

open Sys2Proof Sys2Proof.Machine

/-! ## The queue of commands and the reset -/

/-- The command at the front of the queue runs on the state with the queue's rest; on an empty queue the part idles (log
entry 1). -/
def Obligations.StepRunsTheFrontCommand : Prop :=
  (∀ (c : Instr) (rest : List Instr) (s : State),
    step { s with pending := c :: rest } = exec c { s with pending := rest }) ∧
  ∀ s : State, s.pending = [] → step s = .next s

/-- No command stops the part, and none touches the queue of waiting commands (log entries 1, 23). -/
def Obligations.EveryCommandCompletes : Prop :=
  ∀ (c : Instr) (s : State), ∃ t, exec c s = .next t ∧ t.pending = s.pending

/-- While RESETN is low only the end of the reset changes the part (R115, R133; log entry 22). -/
def Obligations.ResetHoldsThePart : Prop :=
  ∀ (c : Instr) (s : State), s.resetn = false → c ≠ .deviceReset → (∀ a b, c ≠ .deviceResetEnd a b) →
    exec c s = .next s

/-- What a device reset leaves, block by block (R5, R22, R40, R59, R83, R115, R116, R132, R133, R170, R171).
The model's choices: that the waiting commands, the free count and the line levels scl, sda and hrx are kept (log entry 22),
that admissions are numbered from 0 (log entry 20), and that a cleared record holds the operation READ (log entry 33). -/
def Obligations.DeviceResetLeavesResetValues : Prop :=
  ∀ s : State, ∃ t, exec .deviceReset s = .next t ∧ t.pending = s.pending ∧ t.freeCount = s.freeCount ∧
    t.nextAdmission = 0 ∧ t.resetn = false ∧ (∀ p, hasPort t.managers p = true ↔ p = 0) ∧
    (∀ u, t.mapEntry u =
      { valid := false, segment := .A, form := .sevenBit, address := 0, subWidth := 0, windowLow := 0, windowHigh := 0
        maxTransfer := 0, readPorts := 0, writePorts := 0, priority := 0, retryLimit := 0, retryInterval := 0
        speed := .standard, slowDown := 0 }) ∧
    (∀ i, t.slot i =
      { state := .free, orphan := false, owner := 0, tag := 0, target := 0
        snapshot := { segment := .A, form := .sevenBit, address := 0, subWidth := 0, priority := 0, retryLimit := 0
                      retryInterval := 0, speed := .standard, slowDown := 0 }
        operation := .read, subAddress := none, writeData := [], readLength := none, deadlinePassed := false, losses := 0
        retriesUsed := 0, passedOver := 0, attempts := 0, result := none, lifetimeTimer := none, retryTimer := none
        admission := 0 }) ∧
    (∀ g, t.seg g =
      { list := [], held := false, engine := .check false
        setup := { enable := true, timing := { busFreeWait := 5, stretchTimeout := 25, busyLongLimit := 0 } }
        inForce := { busFreeWait := 5, stretchTimeout := 25, busyLongLimit := 0 }
        stopOwed := false, readyOwed := false, recovery := none, pulseCount := 0
        quietTimer := none, dataHeldTimer := none, clockHeldTimer := none
        counters := { transactionsOk := 0, addressNacks := 0, dataNacks := 0, arbitrationLosses := 0
                      stretchTimeouts := 0, recoveries := 0, busyLongEvents := 0 }
        monitor := .settling, busFreeTimer := none, busyLongTimer := none, busyLongReported := false
        scl := (s.seg g).scl, sda := (s.seg g).sda }) ∧
    ∀ p, t.port p =
      { format := { divisor := 120, parity := .none, stopBits := 1, inverted := false, msbFirst := false
                    gapTime := 4, breakThreshold := 3 }
        txFormat := { divisor := 120, parity := .none, stopBits := 1, inverted := false, msbFirst := false
                      gapTime := 4, breakThreshold := 3 }
        pendingSwitch := none, mask := 0, hrx := (s.port p).hrx, receiver := .waitMark
        spaceTimer := none, gapTimer := none, assembly := { state := .idle, buffer := [] }
        tx := .idle, txFrame := [], queue := [], store := Vector.replicate 6 none, noticeSeq := 0
        counters := { accepted := 0, crcErrors := 0, characterErrors := 0, abandoned := 0, noiseBytes := 0
                      silentDiscards := 0, noticesDropped := 0 } }

/-- The end of a device reset: every block starts from its reset values, and the timers of each segment start from the
levels it sees (R83, R100, R101, R115, R133).
That the command changes nothing with RESETN high, where there is no reset to end, is the model's choice (log entry 2). -/
def Obligations.DeviceResetEndStartsThePart : Prop :=
  ∀ (a b : Levels) (s : State),
    (s.resetn = true → exec (.deviceResetEnd a b) s = .next s) ∧
    (s.resetn = false → ∃ t u, exec .deviceReset s = .next u ∧ exec (.deviceResetEnd a b) s = .next t ∧
      t = { u with resetn := true, segA := t.seg .A, segB := t.seg .B } ∧
      ∀ g, let l : Levels := if g = .A then a else b
        t.seg g = { u.seg g with
          scl := l.clock
          sda := l.data
          busFreeTimer := if l.clock ∧ l.data then some 5 else none
          quietTimer := if l.clock ∧ l.data then some 5 else none
          dataHeldTimer := if l.clock ∧ ¬l.data then some 1 else none
          clockHeldTimer := if ¬l.clock then some 25 else none })

/-! ## The receive side -/

/-- A change from mark to space whose start bit stands starts the space timer and stops the gap timer; one that is at mark
half a bit later is discarded without count (R120, R122, R123).
That a receiver waiting for mark takes the start bit, having seen mark before it, is the model's reading (log entry 5). -/
def Obligations.StartBitStandsOrIsDiscarded : Prop :=
  ∀ (p : PortId) (s : State), s.resetn = true → (s.port p).receiver = .waitMark ∨ (s.port p).receiver = .ready →
    exec (.startBit p true) s = .next (s.setPort p
      { s.port p with
        hrx := (s.port p).format.inverted
        receiver := .inCharacter
        gapTimer := none
        spaceTimer := some ((s.port p).format.breakThreshold * (s.port p).format.characterTime) }) ∧
    exec (.startBit p false) s = .next (s.setPort p
      { s.port p with hrx := !(s.port p).format.inverted, receiver := .ready, spaceTimer := none })

/-- The judgement of a character, from the levels sampled: the table of R121 with the polarity, bit order and parity of
R118. A byte sent as a character of a format is received as that byte, in every format. A sent character is its start bit,
data bits, parity bit and stop bits, each one bit time (R117, R118), and HTXn carries these for the frame being sent, one
character after another, and mark otherwise; mark of normal polarity while RESETN is low (R119, R124, R133).
That the bit time is an argument, and no field of the state, is the model's choice (log entry 26). -/
def Obligations.CharacterJudgementFollowsTheTable : Prop :=
  (∀ (f : LineFormat) (b : Byte), f.stopBits = 1 ∨ f.stopBits = 2 →
    let bits := f.sentBits b
    let heard := f.character b
    bits.length * f.divisor = f.characterTime ∧ bits[0]? = some false ∧
    (∀ k < 8, bits[k + 1]? = some (b.getLsbD (if f.msbFirst then 7 - k else k)) ∧
      bits[k + 1]? = some (heard.data.getLsbD k != f.inverted)) ∧
    (f.parity ≠ .none → ((bits.drop 1).take 9).count true % 2 = (if f.parity = .even then 0 else 1) ∧
      bits[9]? = some (heard.parity != f.inverted)) ∧
    (∀ k, (if f.parity = .none then 9 else 10) ≤ k → k < bits.length → bits[k]? = some true) ∧
    (heard.stop1 != f.inverted) = true ∧ (heard.stop2 != f.inverted) = true) ∧
  (∀ (s : State) (p : PortId),
    let f := (s.port p).txFormat
    (s.resetn = false → ∀ k, s.htx p k = true) ∧
    (s.resetn = true →
      ((s.port p).tx = .idle ∨ (s.port p).tx = .held → ∀ k, s.htx p k = !f.inverted) ∧
      ((s.port p).tx = .sending ∨ (s.port p).tx = .finishing → f.stopBits = 1 ∨ f.stopBits = 2 →
        ∀ (before : List Byte) (b : Byte) (after : List Byte), (s.port p).txFrame = before ++ b :: after →
          ∀ k < f.characterBits, ∀ bit, (f.sentBits b)[k]? = some bit →
            s.htx p (before.length * f.characterBits + k) = (bit != f.inverted)))) ∧
  ∀ (f : LineFormat) (c : RxChar),
    (f.judge c = .candidate ↔
      (∀ k < 8, (c.data.getLsbD k != f.inverted) = false) ∧ (f.parity ≠ .none → (c.parity != f.inverted) = false) ∧
        (c.stop1 != f.inverted) = false) ∧
    ∀ b, (f.judge c = .good b ↔
      (c.stop1 != f.inverted) = true ∧ (f.stopBits = 2 → (c.stop2 != f.inverted) = true) ∧
        (∀ k < 8, b.getLsbD (if f.msbFirst then 7 - k else k) = (c.data.getLsbD k != f.inverted)) ∧
        (f.parity = .even → f.onesSampled c % 2 = 0) ∧ (f.parity = .odd → f.onesSampled c % 2 = 1)) ∧
    f.judge (f.character b) = .good b

/-- Message assembly in idle: the four events of R137.
That a character comes with its own start bit on a receiver in ready or waitMark is the model's reading (log entry 5). -/
def Obligations.IdleAssemblyTakesItsEvents : Prop :=
  ∀ (p : PortId) (c : RxChar) (s : State), s.resetn = true → (s.port p).receiver ≠ .breakWatch →
    (s.port p).receiver ≠ .breakHold → (s.port p).assembly = ⟨.idle, []⟩ →
    ((s.port p).format.judge c = .good 0xD3#8 →
      exec (.characterReceived p c) s =
        .next (s.setPort p { (s.port p).quietened with assembly := ⟨.receiving, [0xD3#8]⟩ })) ∧
    (∀ b, b ≠ 0xD3#8 → (s.port p).format.judge c = .good b →
      exec (.characterReceived p c) s =
        .next (s.setPort p { (s.port p).quietened with
          counters := { (s.port p).counters with noiseBytes := bump (s.port p).counters.noiseBytes } })) ∧
    ((s.port p).format.judge c = .error →
      ∃ t, exec (.characterReceived p c) s = .next t ∧ (t.port p).assembly = ⟨.hunting, []⟩ ∧
        (t.port p).counters.characterErrors = bump (s.port p).counters.characterErrors) ∧
    ∃ t, exec (.gapTimerExpiry p) s = .next t ∧ (t.port p).assembly = ⟨.idle, []⟩ ∧ (t.port p).counters = (s.port p).counters

/-- A good byte in receiving is appended, a fourth byte above 200 abandons the frame, and the last byte of a frame does
what the frame's own command does (R138, R139). In hunting every good byte is discarded uncounted (R142).
Judging in the same command is the model's choice (log entry 4), and so is a character that brings its own start bit to a
receiver in ready or waitMark (log entry 5). -/
def Obligations.ReceivingAppendsUntilTheFrameIsWhole : Prop :=
  ∀ (p : PortId) (c : RxChar) (b : Byte) (s : State), s.resetn = true → (s.port p).receiver ≠ .breakWatch →
    (s.port p).receiver ≠ .breakHold → (s.port p).format.judge c = .good b →
    ((s.port p).assembly.state = .hunting →
      exec (.characterReceived p c) s = .next (s.setPort p (s.port p).quietened)) ∧
    ((s.port p).assembly.state = .receiving →
      ((s.port p).assembly.buffer.length = 3 → 200 < b.toNat →
        exec (.characterReceived p c) s = .next (s.setPort p
          { (s.port p).quietened with
            assembly := ⟨.hunting, []⟩
            counters := { (s.port p).counters with abandoned := bump (s.port p).counters.abandoned } })) ∧
      (∀ kind tag body crc rest, body.length ≤ 200 → rest ≠ [] →
        (s.port p).assembly.buffer ++ b :: rest = frameWithCrc kind tag body crc →
        exec (.characterReceived p c) s = .next (s.setPort p
          { (s.port p).quietened with assembly := ⟨.receiving, (s.port p).assembly.buffer ++ [b]⟩ })) ∧
      ∀ kind tag body crc, body.length ≤ 200 →
        (s.port p).assembly.buffer ++ [b] = frameWithCrc kind tag body crc →
        exec (.characterReceived p c) s = exec (messageCommand p kind tag body crc) s)

/-- A character error, a break candidate, and the end of a break watch (R121, R122, R123, R140). The space timer of a
candidate runs on from its start bit; a character that brings its own start bit starts it afresh.
That reading of such a character, and that a receiver that waits for mark only sees it, are the model's (log entry 5). -/
def Obligations.CharacterErrorsAndBreakWatch : Prop :=
  ∀ (p : PortId) (s : State), s.resetn = true →
    (∀ c, (s.port p).receiver ≠ .breakWatch → (s.port p).receiver ≠ .breakHold →
      let atMark := (if (s.port p).format.stopBits = 2 then c.stop2 else c.stop1) != (s.port p).format.inverted
      ((s.port p).format.judge c = .error →
        exec (.characterReceived p c) s = .next (s.setPort p ((s.port p).errored atMark))) ∧
      ((s.port p).format.judge c = .candidate → atMark = true →
        exec (.characterReceived p c) s = .next (s.setPort p ((s.port p).errored true))) ∧
      ((s.port p).format.judge c = .candidate → atMark = false →
        exec (.characterReceived p c) s = .next (s.setPort p
          { s.port p with
            hrx := (s.port p).format.inverted
            receiver := .breakWatch
            gapTimer := none
            spaceTimer :=
              let length := (s.port p).format.breakThreshold * (s.port p).format.characterTime
              if (s.port p).receiver = .inCharacter then some ((s.port p).spaceTimer.getD length) else some length }))) ∧
    ((s.port p).receiver = .breakWatch →
      exec (.breakWatchEndsAtMark p) s = .next (s.setPort p ((s.port p).errored true))) ∧
    ((s.port p).receiver = .waitMark →
      exec (.breakWatchEndsAtMark p) s = .next (s.setPort p
        { s.port p with hrx := !(s.port p).format.inverted, receiver := .ready, spaceTimer := none }))

/-- The expiry of the gap timer in each assembly state: the table of R141. -/
def Obligations.GapExpiryEndsFramesAndHunting : Prop :=
  ∀ (p : PortId) (s : State), s.resetn = true → (s.port p).gapTimer.isSome = true →
    ((s.port p).assembly = ⟨.idle, []⟩ →
      exec (.gapTimerExpiry p) s = .next (s.setPort p { s.port p with gapTimer := none })) ∧
    ((s.port p).assembly.state = .receiving →
      exec (.gapTimerExpiry p) s = .next (s.setPort p
        { s.port p with
          gapTimer := none
          assembly := ⟨.idle, []⟩
          counters := { (s.port p).counters with abandoned := bump (s.port p).counters.abandoned } })) ∧
    ((s.port p).assembly.state = .hunting →
      exec (.gapTimerExpiry p) s = .next (s.setPort p { s.port p with gapTimer := none, assembly := ⟨.idle, []⟩ }))

/-- A recognized break restarts its port and reaches nothing of any other port (R39, R58, R112, R124, R168): the part is
as `State.broken` tells; and where a pending switch changes the polarity, the line so held is at mark of the new one,
and the break ends in the same act (R126, R127; log entry 18). The space timer expires in a break watch (R123) or, left
by a switch point, on a receiver that waits for mark (R130); where that switch changed the polarity, that the break then
holds until BREAK_END is the model's choice (R127; log entry 34); before the character has ended as a candidate, and
with the timer stopped, nothing changes (log entries 2, 5). That assembly is idle from the break on, also where it was
hunting, is the model's choice too (R143; log entry 38). -/
def Obligations.BreakRestartsItsPort : Prop :=
  ∀ (p : PortId) (s : State), s.resetn = true →
    ((s.port p).spaceTimer = none ∨ (s.port p).receiver ≠ .breakWatch ∧ (s.port p).receiver ≠ .waitMark →
      exec (.breakRecognized p) s = .next s) ∧
    ((s.port p).spaceTimer.isSome = true → (s.port p).receiver = .breakWatch ∨ (s.port p).receiver = .waitMark →
      s.PoolFits →
      ((∀ w, (s.port p).pendingSwitch = some w → w.format.inverted = (s.port p).format.inverted) →
        exec (.breakRecognized p) s = .next (s.broken p)) ∧
      ∀ w, (s.port p).pendingSwitch = some w → w.format.inverted ≠ (s.port p).format.inverted →
        exec (.breakRecognized p) s = exec (.breakEnd p) (s.broken p))

/-- The end of a break (R127, R169): the PORT_RESTARTED notice takes the next sequence number and joins the tail, and a
HELD transmitter becomes IDLE and takes up the head of the queue; one still finishing its character goes on (log entry
17). Beside it the codes of the notice kinds (R153) and the kinds that a mask selects (R156, R165). -/
def Obligations.BreakEndAnnouncesTheRestart : Prop :=
  [NoticeKind.segFault, .segReady, .busyLong, .mapChanged, .portRestarted].map NoticeKind.code = [1, 2, 3, 4, 5] ∧
  (∀ mask : BitVec 4,
    [NoticeKind.segFault, .segReady, .busyLong, .mapChanged, .portRestarted].map (NoticeKind.selected mask) =
      [mask.getLsbD 0, mask.getLsbD 1, mask.getLsbD 2, mask.getLsbD 3, true]) ∧
  ∀ (p : PortId) (s : State), s.resetn = true → (s.port p).receiver = .breakHold →
    let v : Port := { s.port p with
      hrx := !(s.port p).format.inverted, receiver := .ready, spaceTimer := none, assembly := ⟨.idle, []⟩ }
    ((s.port p).tx = .held → exec (.breakEnd p) s = .next (s.setPort p
      (({ v.noticed .portRestarted 0 with tx := .idle } : Port).takesUp fun i => (s.slot i).resultFrame))) ∧
    ((s.port p).tx = .finishing → exec (.breakEnd p) s = .next (s.setPort p (v.noticed .portRestarted 0)))

/-- The layout of a frame, the CRC of its covered bytes, and the kind bytes of what the part sends (R134, R135, R148). A frame
whose CRC does not match is counted and has no other effect (R139). A good message of another version, or of a kind no
host may send, is refused with its kind byte as received, and has no other effect (R144). -/
def Obligations.FramesNotHandedOn : Prop :=
  (∀ (kind tag : Byte) (body : List Byte) (crc : BitVec 16), frameWithCrc kind tag body crc =
    [0xD3#8, kind, tag, byte body.length] ++ body ++ [byte (crc.toNat / 256), byte crc.toNat]) ∧
  (∀ (kind tag : Byte) (body : List Byte), frameOf kind tag body =
    frameWithCrc kind tag body (crcOf ([kind, tag, byte body.length] ++ body))) ∧
  (crcOf [] = 0xFFFF#16 ∧ crcOf [0x31, 0x32, 0x33, 0x34, 0x35, 0x36, 0x37, 0x38, 0x39] = 0x29B1#16 ∧
    ∀ (bytes : List Byte) (b : Byte), crcOf (bytes ++ [b]) = (List.range 8).foldl
      (fun (r : BitVec 16) k => if r.msb = b.getMsbD k then r <<< 1 else (r <<< 1) ^^^ 0x1021#16) (crcOf bytes)) ∧
  (∀ x : StoreEntry, x.frame = frameOf (match x.kind with
    | .refuse => 0x19#8
    | .canreply => 0x1A#8
    | .mreply => 0x1B#8
    | .notice => 0x1C#8) x.tag x.body) ∧
  ∀ (p : PortId) (kind tag : Byte) (body : List Byte) (s : State),
    (∀ crc, s.resetn = true → body.length ≤ 200 → crcOf (covered kind tag body) ≠ crc →
      (s.port p).Hears (frameWithCrc kind tag body crc) →
      exec (.crcError p kind tag body crc) s = .next (s.setPort p
        { (s.port p).framed with
          counters := { (s.port p).counters with crcErrors := bump (s.port p).counters.crcErrors } })) ∧
    ∀ e, s.Arrives p kind tag body → (s.port p).freeEntry = some e →
      (kind.toNat / 16 ≠ 1 → exec (.badverBadkindMessage p kind tag body) s =
        .next ((s.heard p).sends p e (refuseEntry .badver kind tag))) ∧
      (kind.toNat / 16 = 1 → kind.toNat % 16 ≠ 1 → kind.toNat % 16 ≠ 2 → kind.toNat % 16 ≠ 3 →
        exec (.badverBadkindMessage p kind tag body) s =
          .next ((s.heard p).sends p e (refuseEntry .badkind kind tag)))

/-- A frame sent byte by byte, each byte a start bit and a character of the port's format, does what its command does,
whatever first part of it assembly already holds (R118, R120, R121, R134 to R139; log entries 3, 4).
That the first start bit is taken on a receiver that waits for mark is the model's reading (log entry 5). -/
def Obligations.FrameSentByteByByteIsItsCommand : Prop :=
  ∀ (p : PortId) (kind tag : Byte) (body : List Byte) (crc : BitVec 16) (rest : List Byte) (s : State),
    s.resetn = true → body.length ≤ 200 → (s.port p).receiver = .waitMark ∨ (s.port p).receiver = .ready →
    (s.port p).LineFits → (s.port p).assembly.state ≠ .hunting → rest ≠ [] →
    (s.port p).assembly.buffer ++ rest = frameWithCrc kind tag body crc →
    execAll (rest.flatMap (byteCommands p (s.port p).format)) s = exec (messageCommand p kind tag body crc) s

/-! ## Requests -/

/-- The eleven checks of admission, in the order of R25, with the body of R26 and R149, the permissions of R10, the window
of R8, the lengths of R9, the tags of R24, and the lowest FREE slot of R22. -/
def Obligations.AdmissionChecksStandInOrder : Prop :=
  ∀ (p : PortId) (tag : Byte) (s : State),
    (∀ body, body.length < 3 → s.checkTxn p tag body = .error .badfmt) ∧
    ∀ (t o flags : Byte) (rest : List Byte), let answer := s.checkTxn p tag (t :: o :: flags :: rest)
      (47 < t.toNat → answer = .error .notarget) ∧
      ∀ u : TargetId, u.val = t.toNat → let e := s.mapEntry u
        (e.valid = false → answer = .error .notarget) ∧
        (e.valid = true → e.subWidth ≤ 2 →
          (o.toNat = 0 ∨ 4 < o.toNat → answer = .error .badop) ∧
          ∀ op : Operation, op.code = o →
            ((¬∃ f : TxnFields, f.Agrees op e.subWidth ∧ rest = f.layout e.subWidth ∧
                flags = (if f.lifetime.isSome then 1 else 0)) → answer = .error .badfmt) ∧
            ∀ f : TxnFields, f.Agrees op e.subWidth → rest = f.layout e.subWidth →
              flags = (if f.lifetime.isSome then 1 else 0) →
              (¬f.Permitted e p op → answer = .error .denied) ∧
              (f.Permitted e p op → ¬f.InWindow e → answer = .error .badsub) ∧
              (f.Permitted e p op → f.InWindow e → ¬f.Short e → answer = .error .toolong) ∧
              (f.Permitted e p op → f.InWindow e → f.Short e →
                ((∃ j, (s.slot j).live = true ∧ (s.slot j).owner = p ∧ (s.slot j).tag = tag) →
                  answer = .error .duptag) ∧
                ((¬∃ j, (s.slot j).live = true ∧ (s.slot j).owner = p ∧ (s.slot j).tag = tag) →
                  ((s.seg e.segment).engine = .off ∨ (s.seg e.segment).engine = .fault →
                    answer = .error .segdown) ∧
                  ((s.seg e.segment).engine ≠ .off → (s.seg e.segment).engine ≠ .fault →
                    (8 ≤ s.occupied p → answer = .error .window) ∧
                    (s.occupied p < 8 →
                      ((∀ i, (s.slot i).state ≠ .free) → answer = .error .noslot) ∧
                      ∀ i, (s.slot i).state = .free → (∀ j < i, (s.slot j).state ≠ .free) →
                        answer = .ok ⟨i, u, e, op, f⟩)))))

/-- An admitted TXN (R13, R19, R28): the slot's record, the tail of its segment's list, the lifetime timer, and no message.
The admission number is the model's own (log entry 20). -/
def Obligations.AdmittedRequestFillsItsSlot : Prop :=
  ∀ (p : PortId) (tag : Byte) (body : List Byte) (a : Admission) (s : State), s.resetn = true → body.length ≤ 200 →
    (s.port p).Hears (frameOf kindTxn tag body) → s.checkTxn p tag body = .ok a →
    exec (.txn p tag body) s = .next
      { ((s.heard p).setSlot a.slot
          { state := .pending, orphan := false, owner := p, tag := tag, target := a.target.val
            snapshot :=
              { segment := a.entry.segment, form := a.entry.form, address := a.entry.address
                subWidth := a.entry.subWidth, priority := a.entry.priority, retryLimit := a.entry.retryLimit
                retryInterval := a.entry.retryInterval, speed := a.entry.speed, slowDown := a.entry.slowDown }
            operation := a.operation, subAddress := a.fields.subAddress, writeData := a.fields.writeData
            readLength := a.fields.readLength, deadlinePassed := false, losses := 0, retriesUsed := 0, passedOver := 0
            attempts := 0, result := none, lifetimeTimer := a.fields.lifetime, retryTimer := none
            admission := s.nextAdmission }).setSeg a.entry.segment
          { s.seg a.entry.segment with list := (s.seg a.entry.segment).list ++ [a.slot] } with
        nextAdmission := s.nextAdmission + 1 }

/-- A refused TXN: its REFUSE, with the reason of the first check that fails, and nothing else (R25, R27, R151). The reasons
have the codes of R151. -/
def Obligations.RefusedTxnHasOnlyItsRefusal : Prop :=
  [Reason.badver, .badkind, .badfmt, .nopriv, .notarget, .denied, .badsub, .toolong, .badop, .duptag, .window, .noslot,
    .segdown].map Reason.code = [1, 2, 3, 4, 5, 6, 7, 8, 9, 10, 11, 12, 13] ∧
  (∀ (reason : Reason) (kind tag : Byte), (refuseEntry reason kind tag).frame = frameOf 0x19 tag [reason.code, kind]) ∧
  ∀ (p : PortId) (tag : Byte) (body : List Byte) (reason : Reason) (e : StoreIx) (s : State),
    s.Arrives p kindTxn tag body → s.checkTxn p tag body = .error reason → (s.port p).freeEntry = some e →
    exec (.txn p tag body) s = .next ((s.heard p).sends p e (refuseEntry reason 0x11#8 tag))

/-- A CANCEL by the state of the request it names (R50, R51, R146, R152): a waiting request leaves its list and is answered
CANCELLED, its CANREPLY ahead of its RESULT; a running or answered one is left as it is; one that is not there is UNKNOWN;
and a body that is not one byte is refused. The outcomes have the codes of R152. -/
def Obligations.CancelAnswersByTheRequestState : Prop :=
  [CancelOutcome.removed, .tooLate, .unknown].map CancelOutcome.code = [0, 1, 2] ∧
  (∀ (o : CancelOutcome) (tag named : Byte), (canreplyEntry tag o named).frame = frameOf 0x1A tag [o.code, named]) ∧
  ∀ (p : PortId) (tag : Byte) (e : StoreIx) (s : State), (s.port p).freeEntry = some e → s.PoolFits →
    (∀ named i, s.Arrives p kindCancel tag [named] → (s.slot i).live = true → (s.slot i).owner = p →
      (s.slot i).tag = named →
      ((s.slot i).state = .pending ∨ (s.slot i).state = .deferred →
        let r := (s.slot i).answered ⟨.cancelled, .none, 0, []⟩
        let g := (s.slot i).snapshot.segment
        exec (.cancel p tag [named]) s = .next
          (((s.setSlot i r).setSeg g { s.seg g with list := (s.seg g).list.filter fun j => decide (j ≠ i) }).setPort p
            (((s.port p).heard.sends e (canreplyEntry tag .removed named)).queued i r.resultFrame))) ∧
      ((s.slot i).state = .active ∨ (s.slot i).state = .answer →
        exec (.cancel p tag [named]) s = .next ((s.heard p).sends p e (canreplyEntry tag .tooLate named)))) ∧
    (∀ named, s.Arrives p kindCancel tag [named] →
      (∀ i, (s.slot i).live = true → (s.slot i).owner = p → (s.slot i).tag ≠ named) →
      exec (.cancel p tag [named]) s = .next ((s.heard p).sends p e (canreplyEntry tag .unknown named))) ∧
    ∀ body, s.Arrives p kindCancel tag body → body.length ≠ 1 →
      exec (.cancel p tag body) s = .next ((s.heard p).sends p e (refuseEntry .badfmt 0x12#8 tag))

/-! ## The gate -/

/-- With every store entry occupied, a CANCEL, a MGMT, a message of a wrong version or kind, and a TXN that is refused
are handled as if the oldest ready NOTICE had been dropped and counted before; with no NOTICE ready such a message is
discarded: its silent discard is counted beside its acceptance, and nothing else changes (R144, R163). A store is full when
all six entries are occupied; the oldest ready NOTICE is the first of the queue whose entry is a NOTICE in condition ready.
That a free entry taken is the lowest is the model's choice (log entry 30). -/
def Obligations.FullStoreDropsANoticeOrDiscards : Prop :=
  (∀ v : Port, let notice (e : StoreIx) : Prop := ∃ x, v.store[e] = some x ∧ x.kind = .notice ∧ x.condition = .ready
    (v.freeEntry = none ↔ ∀ e : StoreIx, v.store[e].isSome = true) ∧
    (∀ e, v.freeEntry = some e ↔ v.store[e] = none ∧ ∀ f < e, v.store[f].isSome = true) ∧
    (v.oldestNotice = none ↔ ∀ e, .entry e ∈ v.queue → ¬notice e) ∧
    ∀ d, v.oldestNotice = some d ↔
      ∃ before after, v.queue = before ++ .entry d :: after ∧ notice d ∧ ∀ e, .entry e ∈ before → ¬notice e) ∧
  ∀ (c : Instr) (p : PortId) (kind tag : Byte) (body : List Byte) (s : State),
    s.Arrives p kind tag body → (s.port p).freeEntry = none →
    gatedOf c = some (p, kind, tag, body) ∨
      (c = .txn p tag body ∧ kind = kindTxn ∧ ∃ reason, s.checkTxn p tag body = .error reason) →
    (∀ d, (s.port p).oldestNotice = some d → exec c s = exec c (s.setPort p
      { s.port p with
        store := (s.port p).store.set d.val none d.isLt
        queue := (s.port p).queue.filter fun item => decide (item ≠ .entry d)
        counters := { (s.port p).counters with noticesDropped := bump (s.port p).counters.noticesDropped } })) ∧
    ((s.port p).oldestNotice = none → exec c s = .next (s.setPort p
      { (s.port p).framed with
        counters := { (s.port p).counters with
          accepted := bump (s.port p).counters.accepted
          silentDiscards := bump (s.port p).counters.silentDiscards } }))

/-! ## Management -/

/-- A MGMT from a port without the privilege is refused NOPRIV whatever it asks; a manager's MGMT with an empty body is
refused BADFMT and one of an unknown operation BADOP; none has any other effect (R147, R151). -/
def Obligations.ManagementNeedsPrivilegeAndAnOperation : Prop :=
  ∀ (c : Instr) (p : PortId) (tag : Byte) (body : List Byte) (e : StoreIx) (s : State),
    mgmtOf c = some (p, tag, body) → s.Arrives p kindMgmt tag body → (s.port p).freeEntry = some e →
    (hasPort s.managers p = false → exec c s = .next ((s.heard p).sends p e (refuseEntry .nopriv 0x13#8 tag))) ∧
    (hasPort s.managers p = true →
      (body = [] → exec c s = .next ((s.heard p).sends p e (refuseEntry .badfmt 0x13#8 tag))) ∧
      (c = .mgmtBadop p tag body → body ≠ [] →
        exec c s = .next ((s.heard p).sends p e (refuseEntry .badop 0x13#8 tag))))

/-- Arguments of a wrong number, or out of range, are answered BADARG and have no effect (R154, R156, R157, R174 to R184,
R189). The statuses have the codes of R154. -/
def Obligations.BadArgumentsAreAnsweredWithoutEffect : Prop :=
  [MgmtStatus.done, .badarg, .busy, .lastmgr, .noeffect, .failed].map MgmtStatus.code = [0, 1, 2, 3, 4, 5] ∧
  (∀ (tag op : Byte) (status : MgmtStatus) (reply : List Byte), (mreplyEntry tag op status reply).frame =
    frameOf 0x1B tag (op :: status.code :: reply)) ∧
  ∀ (p : PortId) (tag : Byte) (e : StoreIx) (s : State),
    (∀ (c : Instr) (op : Byte) (args : List Byte), mgmtOf c = some (p, tag, op :: args) → op ∈ mgmtOps →
      s.Manages p tag (op :: args) e → args.length ≠ argumentCount op →
      exec c s = .next (s.replied p e tag op .badarg [])) ∧
    (∀ ix fields, s.Manages p tag (0x01#8 :: ix :: fields) e → 47 < ix.toNat ∨ entryOfRecord fields = none →
      exec (.mapWrite p tag (ix :: fields)) s = .next (s.replied p e tag 0x01 .badarg [])) ∧
    (∀ ix, s.Manages p tag [0x02#8, ix] e → 47 < ix.toNat →
      exec (.mapRead p tag [ix]) s = .next (s.replied p e tag 0x02 .badarg [])) ∧
    (∀ ix fl, s.Manages p tag [0x03#8, ix, fl] e → 47 < ix.toNat ∨ 1 < fl.toNat →
      exec (.mapRetire p tag [ix, fl]) s = .next (s.replied p e tag 0x03 .badarg [])) ∧
    (∀ q fields, s.Manages p tag (0x10#8 :: q :: fields) e → 3 < q.toNat ∨ profileOfRecord fields = none →
      exec (.portSet p tag (q :: fields)) s = .next (s.replied p e tag 0x10 .badarg [])) ∧
    (∀ q, s.Manages p tag [0x11#8, q] e → 3 < q.toNat →
      exec (.portRead p tag [q]) s = .next (s.replied p e tag 0x11 .badarg [])) ∧
    (∀ g en bf st bl, s.Manages p tag [0x20#8, g, en, bf, st, bl] e →
      1 < g.toNat ∨ 1 < en.toNat ∨ bf = 0 ∨ st = 0 →
      exec (.segSet p tag [g, en, bf, st, bl]) s = .next (s.replied p e tag 0x20 .badarg [])) ∧
    (∀ g : Byte, 1 < g.toNat →
      (s.Manages p tag [0x21#8, g] e → exec (.segHold p tag [g]) s = .next (s.replied p e tag 0x21 .badarg [])) ∧
      (s.Manages p tag [0x22#8, g] e → exec (.segRelease p tag [g]) s = .next (s.replied p e tag 0x22 .badarg [])) ∧
      (s.Manages p tag [0x23#8, g] e → exec (.segRecover p tag [g]) s = .next (s.replied p e tag 0x23 .badarg [])) ∧
      (s.Manages p tag [0x24#8, g] e → exec (.segReset p tag [g]) s = .next (s.replied p e tag 0x24 .badarg []))) ∧
    ∀ sel fl, s.Manages p tag [0x30#8, sel, fl] e →
      1 < fl.toNat ∨ sel ∉ [0x00#8, 0x01#8, 0x02#8, 0x03#8, 0x10#8, 0x11#8, 0x20#8] →
      exec (.statusRead p tag [sel, fl]) s = .next (s.replied p e tag 0x30 .badarg [])

/-- The entry record and the profile record hold exactly the values in the ranges of R3, R4, R116, R175 and R178, in the
layouts of R155 and R156: a record is read as an entry or a profile just when it is that value's record. -/
def Obligations.RecordsHoldExactlyTheLegalValues : Prop :=
  (∀ (rec : List Byte) (x : MapEntry), entryOfRecord rec = some x ↔
    rec = x.layout ∧
    x.valid = true ∧
    (x.form = .sevenBit → 0x08 ≤ x.address ∧ x.address ≤ 0x77) ∧ (x.form = .tenBit → x.address ≤ 1023) ∧
    (x.subWidth = 0 ∧ x.windowLow ≤ 65535 ∧ x.windowHigh ≤ 65535 ∨
      x.subWidth = 1 ∧ x.windowLow ≤ x.windowHigh ∧ x.windowHigh ≤ 255 ∨
      x.subWidth = 2 ∧ x.windowLow ≤ x.windowHigh ∧ x.windowHigh ≤ 65535) ∧
    1 ≤ x.maxTransfer ∧ x.maxTransfer ≤ 64 ∧ x.priority ≤ 3 ∧ x.retryLimit ≤ 7 ∧
    1 ≤ x.retryInterval ∧ x.retryInterval ≤ 255 ∧ x.slowDown ≤ 3) ∧
  ∀ (rec : List Byte) (x : Profile), profileOfRecord rec = some x ↔
    rec = x.format.layout ++ [if x.privilege then 1 else 0, x.mask.setWidth 8] ∧
    1 ≤ x.format.divisor ∧ x.format.divisor ≤ 1023 ∧ (x.format.stopBits = 1 ∨ x.format.stopBits = 2) ∧
    2 ≤ x.format.gapTime ∧ x.format.gapTime ≤ 15 ∧ 2 ≤ x.format.breakThreshold ∧ x.format.breakThreshold ≤ 15

/-- A MAP_WRITE that passes its checks replaces its entry whole and makes it valid, is answered DONE, and creates one
MAP_CHANGED notice for each other port whose mask selects it (R15, R18, R175). -/
def Obligations.MapWriteReplacesTheEntry : Prop :=
  ∀ (p : PortId) (tag ix : Byte) (fields : List Byte) (u : TargetId) (x : MapEntry) (e : StoreIx) (s : State),
    s.Manages p tag (0x01#8 :: ix :: fields) e → (∀ q, (s.port q).Served) → u.val = ix.toNat →
    entryOfRecord fields = some x →
    exec (.mapWrite p tag (ix :: fields)) s = .next ((s.withPorts fun q =>
      if q = p then (s.port p).heard.sends e (mreplyEntry tag 0x01 .done [])
      else (s.port q).noticedIf .mapChanged ix).setMapEntry u x)

/-- MAP_READ and PORT_READ report an entry, and a profile with any pending switch, as they stand, and change nothing; an
index above 47 or a port number above 3 is answered BADARG (R155, R156, R176, R179). -/
def Obligations.ReadsReportTheEntryAndTheProfile : Prop :=
  ∀ (p : PortId) (tag n : Byte) (e : StoreIx) (s : State),
    (s.Manages p tag [0x02#8, n] e →
      (47 < n.toNat → exec (.mapRead p tag [n]) s = .next (s.replied p e tag 0x02 .badarg [])) ∧
      ∀ u : TargetId, u.val = n.toNat → exec (.mapRead p tag [n]) s = .next (s.replied p e tag 0x02 .done
        (n :: (if (s.mapEntry u).valid then 1 else 0) :: (s.mapEntry u).layout))) ∧
    (s.Manages p tag [0x11#8, n] e →
      (3 < n.toNat → exec (.portRead p tag [n]) s = .next (s.replied p e tag 0x11 .badarg [])) ∧
      ∀ q : PortId, q.val = n.toNat → exec (.portRead p tag [n]) s = .next (s.replied p e tag 0x11 .done
        (n :: (s.port q).format.layout ++
          [if hasPort s.managers q then 1 else 0, (s.port q).mask.setWidth 8] ++
          match (s.port q).pendingSwitch with
          | none => [0, 0, 0, 0, 0, 0, 0, 0, 0]
          | some w => 1 :: w.format.layout)))

/-- MAP_RETIRE without the purge flag makes a valid entry invalid, with its other fields kept, DONE and noticed to the other
ports; an invalid entry stays as it is, NOEFFECT (R16, R18, R177). -/
def Obligations.MapRetireInvalidatesTheEntry : Prop :=
  ∀ (p : PortId) (tag ix : Byte) (u : TargetId) (e : StoreIx) (s : State),
    s.Manages p tag [0x03#8, ix, 0] e → (∀ q, (s.port q).Served) → u.val = ix.toNat →
    ((s.mapEntry u).valid = true →
      exec (.mapRetire p tag [ix, 0]) s = .next ((s.withPorts fun q =>
        if q = p then (s.port p).heard.sends e (mreplyEntry tag 0x03 .done [])
        else (s.port q).noticedIf .mapChanged ix).setMapEntry u { s.mapEntry u with valid := false })) ∧
    ((s.mapEntry u).valid = false →
      exec (.mapRetire p tag [ix, 0]) s = .next (s.replied p e tag 0x03 .noeffect []))

/-- MAP_RETIRE with the purge flag (R17, R18, R53, R177): every waiting request of the target is answered RETIRED, those of
one segment in list order and the two segments in any interleaving (log entry 19); every other request is left as it is;
at each port the RETIRED results stand ahead of the MREPLY and of the MAP_CHANGED notice. -/
def Obligations.PurgeAnswersTheWaitingRequests : Prop :=
  ∀ (p : PortId) (tag ix : Byte) (u : TargetId) (e : StoreIx) (s : State),
    s.Manages p tag [0x03#8, ix, 1] e → (∀ q, (s.port q).Served) → s.PoolFits → u.val = ix.toNat →
    ∃ (t : State) (l : List SlotId), exec (.mapRetire p tag [ix, 1]) s = .next t ∧
      (∀ g, (l.filter fun i => decide ((s.slot i).snapshot.segment = g)) =
        (s.seg g).list.filter fun i => decide ((s.slot i).target = u.val)) ∧
      let frame := fun i => ((s.slot i).answered ⟨.retired, .none, 0, []⟩).resultFrame
      let own := fun q => l.filter fun i => decide ((s.slot i).owner = q)
      let status : MgmtStatus := if (s.mapEntry u).valid ∨ l ≠ [] then .done else .noeffect
      t = { (((s.withSlots fun i =>
            if (s.slot i).waiting ∧ (s.slot i).target = u.val then
              (s.slot i).answered ⟨.retired, .none, 0, []⟩
            else s.slot i).withPorts fun q =>
            if q = p then ((s.port p).heard.queuedAll (own p) frame).sends e (mreplyEntry tag 0x03 status [])
            else if (s.mapEntry u).valid then ((s.port q).queuedAll (own q) frame).noticedIf .mapChanged ix
            else (s.port q).queuedAll (own q) frame).setMapEntry u { s.mapEntry u with valid := false }) with
          segA := { s.segA with list := s.segA.list.filter fun i => decide ((s.slot i).target ≠ u.val) }
          segB := { s.segB with list := s.segB.list.filter fun i => decide ((s.slot i).target ≠ u.val) }
          freeCount := t.freeCount }

/-- PORT_SET (R128, R129, R171, R172, R178): LASTMGR and BUSY change nothing; one carried out sets the privilege and the
mask, and records or applies a line format that differs from the one in force, by the asking port and the transmitter.
A transmitter still finishing a character and a break hold of another polarity follow log entries 17, 18 and 27. -/
def Obligations.PortSetChangesTheProfile : Prop :=
  ∀ (p q : PortId) (tag n : Byte) (fields : List Byte) (x : Profile) (e : StoreIx) (s : State),
    s.Manages p tag (0x10#8 :: n :: fields) e → q.val = n.toNat → profileOfRecord fields = some x →
    let last := x.privilege = false ∧ ∀ r, hasPort s.managers r = true ↔ r = q
    let done : State := { s.replied p e tag 0x10 .done [] with
      managers := if x.privilege then s.managers ||| (1#4 <<< q.val) else s.managers &&& ~~~(1#4 <<< q.val) }
    let exec' := exec (.portSet p tag (n :: fields)) s
    (last → exec' = .next (s.replied p e tag 0x10 .lastmgr [])) ∧
    (¬last → (s.port q).pendingSwitch.isSome = true → exec' = .next (s.replied p e tag 0x10 .busy [])) ∧
    (¬last → (s.port q).pendingSwitch = none →
      (x.format = (s.port q).format → exec' = .next (done.setPort q { done.port q with mask := x.mask })) ∧
      (x.format ≠ (s.port q).format →
        (q = p → exec' = .next (done.setPort q
          { done.port q with mask := x.mask, pendingSwitch := some ⟨x.format, .replySent e⟩ })) ∧
        (q ≠ p → (s.port q).tx = .sending → exec' = .next (done.setPort q
          { s.port q with mask := x.mask, pendingSwitch := some ⟨x.format, .messageSent⟩ })) ∧
        (q ≠ p → (s.port q).tx ≠ .sending →
          ((s.port q).receiver ≠ .breakHold →
            exec' = .next (done.setPort q { (s.port q).switched x.format with mask := x.mask })) ∧
          ((s.port q).receiver = .breakHold →
            let held := done.setPort q { (s.port q).reformatted x.format with mask := x.mask }
            ((s.port q).hrx = x.format.inverted → exec' = .next held) ∧
            ((s.port q).hrx ≠ x.format.inverted → exec' = exec (.breakEnd q) held)))))

/-- SEG_SET (R108, R109, R180): a disable that the engine state refuses is BUSY and changes nothing; else the setup record
takes every value, OFF is left for CHECK or entered, and nothing else changes but the timers that levels and states drive,
which follow: a running one keeps its length, and an entry into CHECK starts the check timers (R96, R100, R101). -/
def Obligations.SegSetReplacesTheSetup : Prop :=
  ∀ (p : PortId) (tag gb en bf st bl : Byte) (g : SegId) (e : StoreIx) (s : State),
    s.Manages p tag [0x20#8, gb, en, bf, st, bl] e → gb = (if g = .A then 0 else 1) → en.toNat ≤ 1 → bf ≠ 0 → st ≠ 0 →
    let v := s.seg g
    let x : Setup := ⟨decide (en = 1), ⟨bf.toNat, st.toNat, bl.toNat⟩⟩
    let refused := v.engine.isRun = true ∨ v.engine.isRecover = true ∨
      v.engine ≠ .off ∧ (v.list ≠ [] ∨ v.recovery.isSome = true)
    (en = 0 → refused → exec (.segSet p tag [gb, en, bf, st, bl]) s = .next (s.replied p e tag 0x20 .busy [])) ∧
    ((en = 0 → ¬refused) → ∃ t, exec (.segSet p tag [gb, en, bf, st, bl]) s = .next t ∧
      t = (s.replied p e tag 0x20 .done []).setSeg g (t.seg g) ∧
      v.Becomes { v with
        setup := x
        engine := if en = 0 then .off else if v.engine = .off then .check false else v.engine
        inForce := if en = 1 ∧ v.engine = .off then x.timing else v.inForce } (t.seg g))

/-- SEG_HOLD and SEG_RELEASE set and clear the held flag, DONE, and leave one that stands as asked, NOEFFECT (R55, R57,
R181). -/
def Obligations.HoldAndReleaseSetTheFlag : Prop :=
  ∀ (p : PortId) (tag gb : Byte) (g : SegId) (e : StoreIx) (s : State), gb = (if g = .A then 0 else 1) →
    (s.Manages p tag [0x21#8, gb] e →
      ((s.seg g).held = false → exec (.segHold p tag [gb]) s =
        .next ((s.replied p e tag 0x21 .done []).setSeg g { s.seg g with held := true })) ∧
      ((s.seg g).held = true → exec (.segHold p tag [gb]) s = .next (s.replied p e tag 0x21 .noeffect []))) ∧
    (s.Manages p tag [0x22#8, gb] e →
      ((s.seg g).held = true → exec (.segRelease p tag [gb]) s =
        .next ((s.replied p e tag 0x22 .done []).setSeg g { s.seg g with held := false })) ∧
      ((s.seg g).held = false → exec (.segRelease p tag [gb]) s = .next (s.replied p e tag 0x22 .noeffect [])))

/-- SEG_RECOVER by engine state and health record (R104, R111, R164, R182): carried out in IDLE, CHECK and FAULT with no
recovery outstanding, with its entry kept reserved and no reply yet; else BUSY, or NOEFFECT in OFF.
That the first pulse's low clock is seen in the same command is the model's reading (log entry 32), and so are the tag and
the body of an entry that is only reserved (log entry 35). -/
def Obligations.SegRecoverIsDecidedByTheEngine : Prop :=
  ∀ (p : PortId) (tag gb : Byte) (g : SegId) (e : StoreIx) (s : State), gb = (if g = .A then 0 else 1) →
    s.Manages p tag [0x23#8, gb] e →
    let v := s.seg g
    (v.recovery.isSome = true ∨ v.engine.isRun = true ∨ v.engine.isRecover = true →
      exec (.segRecover p tag [gb]) s = .next (s.replied p e tag 0x23 .busy [])) ∧
    (v.recovery = none → v.engine = .off →
      exec (.segRecover p tag [gb]) s = .next (s.replied p e tag 0x23 .noeffect [])) ∧
    (v.recovery = none → v.engine = .idle ∨ v.engine = .fault ∨ v.engine = .check false ∨ v.engine = .check true →
      ∃ t, exec (.segRecover p tag [gb]) s = .next t ∧
        t = (s.setPort p { (s.port p).heard with
          store := (s.port p).store.set e.val (some ⟨.mreply, .reserved, 0, [], some g, false⟩) e.isLt }).setSeg g
            (t.seg g) ∧
        v.Becomes { v.recovering with recovery := some ⟨p, tag⟩ } (t.seg g))

/-- SEG_RESET outside RUN (R96, R100, R113, R183): IDLE goes to CHECK and CHECK begins anew, DONE, with every check timer
started afresh from the levels seen; in RECOVER, FAULT and OFF it has no effect. -/
def Obligations.SegResetOutsideRun : Prop :=
  ∀ (p : PortId) (tag gb : Byte) (g : SegId) (e : StoreIx) (s : State), gb = (if g = .A then 0 else 1) →
    s.Manages p tag [0x24#8, gb] e →
    let v := s.seg g
    (v.engine.isRecover = true ∨ v.engine = .fault ∨ v.engine = .off →
      exec (.segReset p tag [gb]) s = .next (s.replied p e tag 0x24 .noeffect [])) ∧
    (v.engine = .idle ∨ v.engine = .check false ∨ v.engine = .check true →
      ∃ t, exec (.segReset p tag [gb]) s = .next t ∧ t = (s.replied p e tag 0x24 .done []).setSeg g (t.seg g) ∧
        (t.seg g).AgreesButTimers v.checking ∧
        (t.seg g).quietTimer = (if v.scl ∧ v.sda then some v.setup.timing.busFreeWait else none) ∧
        (t.seg g).dataHeldTimer = (if v.scl ∧ ¬v.sda then some 1 else none) ∧
        (t.seg g).clockHeldTimer = (if ¬v.scl then some v.setup.timing.stretchTimeout else none) ∧
        (t.seg g).busyLongTimer = (if v.monitor = .busy ∧ v.setup.timing.busyLongLimit ≠ 0 then
          (if v.inForce.busyLongLimit ≠ 0 then v.busyLongTimer else some v.setup.timing.busyLongLimit) else none))

/-- SEG_RESET in RUN (R68, R80, R81, R183): its DONE reply is composed first. Before the opening start the attempt ends at
once, ABORTED with where 1; with no failure recorded it is aborted with the phase's where code, and its stop begins at once
where the engine holds the clock low, and else once the clock has been seen high and falls (O46); with a first failure it
ends at once with that failure. What the pool makes of an end is `State.settle`.
Whether an engine whose clock was last seen low holds it low or has released it and follows it is a free value (log entry 37),
and that the clock is as it was last seen is the model's reading (log entry 14). -/
def Obligations.SegResetAbortsARunningAttempt : Prop :=
  ∀ (p : PortId) (tag gb : Byte) (g : SegId) (a : Attempt) (e : StoreIx) (s : State), gb = (if g = .A then 0 else 1) →
    s.Manages p tag [0x24#8, gb] e → (s.seg g).engine = .run a →
    let v := s.seg g
    let done := s.replied p e tag 0x24 .done []
    let ended (f : Failure) (left : Bool) (t : State) : Prop :=
      t = (done.settle a (some f)).setSeg g (t.seg g) ∧
      v.Becomes { ((done.settle a (some f)).seg g).checking with
        counters := v.counters.countFail f.kind
        stopOwed := v.stopOwed || left } (t.seg g)
    let aborted : Attempt := { a with failure := some ⟨.aborted, a.phase.place⟩ }
    ∃ t, exec (.segReset p tag [gb]) s = .next t ∧
      (a.timing = none → ended ⟨.aborted, .address⟩ false t) ∧
      (a.timing ≠ none → a.failure = none →
        (v.scl = true ∨ a.phase = .stop →
          t = done.setSeg g (t.seg g) ∧ v.Becomes { v with engine := .run aborted } (t.seg g)) ∧
        (v.scl = false → a.phase ≠ .stop →
          t = ({ done with freeCount := s.freeCount + 1 } : State).setSeg g (t.seg g) ∧
          v.Becomes { v with
            engine := .run (if Config.freeClockReleased s.freeCount then aborted
              else { aborted with phase := .stop, restarted := false, bytePos := 0 }) } (t.seg g))) ∧
      ∀ f, a.timing ≠ none → a.failure = some f → ended f (!a.following) t

/-- STATUS_READ reports a port, a segment or the pool as it stands, and with the clear flag sets the counters reported to 0
in the same act (R157, R184 to R188). The codes are those of R157. -/
def Obligations.StatusReadReportsAndClears : Prop :=
  ∀ (p : PortId) (tag sel fl : Byte) (e : StoreIx) (s : State), s.Manages p tag [0x30#8, sel, fl] e → fl.toNat ≤ 1 →
    let words := fun (cs : List Count) => cs.flatMap fun (c : Count) => [byte (c.toNat / 256), byte c.toNat]
    (∀ q : PortId, q.val = sel.toNat →
      let v := if q = p then { (s.port p).heard with
        store := (s.port p).store.set e.val (some ⟨.mreply, .reserved, 0, [], none, false⟩) e.isLt } else s.port q
      let k := v.counters
      let done := s.replied p e tag 0x30 .done (sel ::
        words [k.accepted, k.crcErrors, k.characterErrors, k.abandoned, k.noiseBytes, k.silentDiscards,
            k.noticesDropped] ++
          [v.noticeSeq, byte v.queue.length, byte (v.store.toList.countP Option.isSome), byte (s.occupied q),
            if v.pendingSwitch.isSome then 1 else 0])
      exec (.statusRead p tag [sel, fl]) s = .next
        (if fl = 1 then done.setPort q { done.port q with counters := ⟨0, 0, 0, 0, 0, 0, 0⟩ } else done)) ∧
    (∀ g : SegId, sel = (if g = .A then 0x10 else 0x11) →
      let v := s.seg g
      let k := v.counters
      let done := s.replied p e tag 0x30 .done (sel ::
        [(match v.engine with
              | .off => 0 | .check _ => 1 | .idle => 2 | .run _ => 3 | .recover _ => 4 | .fault => 5),
            (match v.engine with
              | .run a =>
                (match a.phase with
                  | .start => 1 | .address => 2 | .subAddress => 3 | .write => 4
                  | .restart => 5 | .addressRead => 6 | .read => 7 | .stop => 8)
              | _ => 0),
            (match v.monitor with | .busy => 0 | .settling => 1 | .free => 2), if v.held then 1 else 0, byte v.list.length,
            if v.setup.enable then 1 else 0, byte v.setup.timing.busFreeWait, byte v.setup.timing.stretchTimeout,
            byte v.setup.timing.busyLongLimit, if v.stopOwed then 1 else 0, if v.readyOwed then 1 else 0,
            (match v.recovery with | none => 0xFF | some r => byte r.port.val), byte v.pulseCount] ++
          words [k.transactionsOk, k.addressNacks, k.dataNacks, k.arbitrationLosses, k.stretchTimeouts, k.recoveries,
            k.busyLongEvents])
      exec (.statusRead p tag [sel, fl]) s = .next
        (if fl = 1 then done.setSeg g { v with counters := ⟨0, 0, 0, 0, 0, 0, 0⟩ } else done)) ∧
    (sel = 0x20 → exec (.statusRead p tag [sel, fl]) s = .next (s.replied p e tag 0x30 .done (sel ::
      (List.finRange 24).flatMap fun i =>
        [(match (s.slot i).state with
            | .free => 0 | .pending => 1 | .deferred => 2 | .active => 3 | .answer => 4) +
            if (s.slot i).orphan then 8 else 0,
          byte (s.slot i).owner.val, (s.slot i).tag])))

/-- RESTART is answered DONE in a marked entry, and nothing restarts before that reply has been transmitted (R189). -/
def Obligations.RestartWaitsForItsReply : Prop :=
  ∀ (p : PortId) (tag : Byte) (e : StoreIx) (s : State), s.Manages p tag [0x3F#8] e →
    exec (.restart p tag []) s =
      .next ((s.heard p).sends p e ⟨.mreply, .ready, tag, [0x3F#8, 0], none, true⟩)

/-! ## Scheduling -/

/-- A choice (R30, R43 to R47): taken only with the engine IDLE, the monitor FREE and a request eligible; it takes the one
of highest effective priority, the oldest of those, adds one to the passed-over count, up to 4, of each eligible request
older than it, and begins the attempt record.
That the choice counts no attempt, which R47 may be read to do, is the model's reading (log entry 15), and that a CHOICE
commanded where none can be made changes nothing is its choice (log entries 2, 7). -/
def Obligations.ChoiceTakesTheBestEligible : Prop :=
  ∀ (g : SegId) (s : State), s.resetn = true → s.PoolFits →
    ((s.seg g).engine ≠ .idle ∨ (s.seg g).monitor ≠ .free ∨ (∀ i, ¬s.IsEligible g i) →
      exec (.choice g) s = .next s) ∧
    ((s.seg g).engine = .idle → (s.seg g).monitor = .free → (∃ i, s.IsEligible g i) →
      ∃ i t, exec (.choice g) s = .next t ∧ s.IsEligible g i ∧
        (∀ j, s.IsEligible g j → j ≠ i → (s.slot j).rank < (s.slot i).rank ∨
          (s.slot j).rank = (s.slot i).rank ∧ Ahead (s.seg g).list i j) ∧
        t.slot i = { s.slot i with state := .active } ∧
        (∀ j, j ≠ i →
          (s.IsEligible g j ∧ Ahead (s.seg g).list j i → t.slot j =
            { s.slot j with passedOver := if (s.slot j).passedOver < 4 then (s.slot j).passedOver + 1
                                          else (s.slot j).passedOver }) ∧
          (¬(s.IsEligible g j ∧ Ahead (s.seg g).list j i) → t.slot j = s.slot j)) ∧
        t = (s.withSlots t.slot).setSeg g (t.seg g) ∧
        (s.seg g).Becomes { s.seg g with
          list := (s.seg g).list.filter fun j => decide (j ≠ i)
          engine := .run { slot := i, phase := .start, restarted := false, bytePos := 0, written := 0, readData := []
                           failure := none, following := false, timing := none } } (t.seg g))

/-- The timers of requests (R35, R36, R48, R49): a retry expiry makes a DEFERRED request PENDING at its place; a lifetime
expiry answers a waiting request EXPIRED and only marks an ACTIVE one. -/
def Obligations.TimersActOnTheirRequests : Prop :=
  ∀ (i : SlotId) (s : State), s.resetn = true → let r := s.slot i
    (r.state = .deferred → r.retryTimer.isSome = true →
      exec (.retryTimerExpiry i) s = .next (s.setSlot i { r with state := .pending, retryTimer := none })) ∧
    (r.lifetimeTimer.isSome = true →
      (r.state = .active → exec (.lifetimeExpiry i) s =
        .next (s.setSlot i { r with deadlinePassed := true, lifetimeTimer := none })) ∧
      (r.state = .pending ∨ r.state = .deferred → (s.port r.owner).Served →
        let v := s.seg r.snapshot.segment
        exec (.lifetimeExpiry i) s = .next
          ((s.setSeg r.snapshot.segment { v with list := v.list.filter fun j => decide (j ≠ i) }).answered i
            { r with deadlinePassed := true } ⟨.expired, .none, 0, []⟩)))

/-- What the pool makes of an attempt that ends (R31 to R34, R38, R74, R90, R92): an orphan's slot is freed; a request is
answered by its outcome, deferred with retries left, or returned PENDING with fewer than 8 losses, at its place in the
list; one whose deadline has passed is answered EXPIRED in place of returning. A RESULT has the frame, the body and the
codes of R148 and R150. -/
def Obligations.PoolSettlesAnEndedAttempt : Prop :=
  [Status.ok, .nackaddr, .nackdata, .arblost, .stretch, .segfault, .aborted, .cancelled, .expired, .retired].map Status.code =
    [0, 1, 2, 3, 4, 5, 6, 7, 8, 9] ∧
  [Where.none, .address, .subAddress, .writeData, .readData, .stopOrRestart].map Where.code = [0, 1, 2, 3, 4, 5] ∧
  (∀ (r : Slot) (res : Result), (r.answered res).resultFrame =
    frameOf 0x18 r.tag ([res.status.code, res.place.code, byte res.written, byte r.attempts] ++ res.readData)) ∧
  ∀ (a : Attempt) (s : State), s.PoolFits → (s.slot a.slot).state = .active → (s.port (s.slot a.slot).owner).Served →
    let i := a.slot
    let r := s.slot a.slot
    let answers (f : Option Failure) (r : Slot) (res : Result) : Prop := s.settle a f = s.answered i r res
    (r.orphan = true → ∀ f, s.settle a f = s.setSlot i Slot.cleared) ∧
    (r.orphan = false →
      answers none r ⟨.ok, .none, a.written, a.readData⟩ ∧
      ∀ place,
        answers (some ⟨.dataNack, place⟩) r ⟨.nackdata, place, a.written, []⟩ ∧
        answers (some ⟨.stretchTimeout, place⟩) r ⟨.stretch, place, a.written, []⟩ ∧
        answers (some ⟨.aborted, place⟩) r ⟨.aborted, place, a.written, []⟩ ∧
        (r.operation = .probe ∨ r.snapshot.retryLimit ≤ r.retriesUsed →
          answers (some ⟨.addressNack, place⟩) r ⟨.nackaddr, place, a.written, []⟩) ∧
        (r.operation ≠ .probe → r.retriesUsed < r.snapshot.retryLimit →
          let u : Slot := { r with retriesUsed := r.retriesUsed + 1 }
          (r.deadlinePassed = true → answers (some ⟨.addressNack, place⟩) u ⟨.expired, .none, 0, []⟩) ∧
          (r.deadlinePassed = false → s.Returned (s.settle a (some ⟨.addressNack, place⟩)) i
            { u with state := .deferred, retryTimer := some r.snapshot.retryInterval })) ∧
        let u : Slot := { r with losses := r.losses + 1 }
        (8 ≤ u.losses → answers (some ⟨.arbitrationLost, place⟩) u ⟨.arblost, place, a.written, []⟩) ∧
        (u.losses < 8 → r.deadlinePassed = true →
          answers (some ⟨.arbitrationLost, place⟩) u ⟨.expired, .none, 0, []⟩) ∧
        (u.losses < 8 → r.deadlinePassed = false →
          s.Returned (s.settle a (some ⟨.arbitrationLost, place⟩)) i { u with state := .pending }))

/-! ## An attempt on the wire -/

/-- The phase sequence of each operation with the bytes and the where code of each phase (R68, R69, R70, R71), and what the
engine drives in each bit of a byte and in each condition (R60, R62 to R66, R89, R102, R105, R106): the most significant
bit first, low for a 0 and released for a 1, the same level in the low and the high part, the acknowledge of each byte read
but the last. An abort whose stop has still to begin keeps the clock released and the bit's data until it drives the clock
low and makes the stop (R80).
That bit and part are arguments, and no field of the state, is the model's choice (log entry 26). -/
def Obligations.PhasesAndBytesOfAnAttempt : Prop :=
  (∀ (levels : Byte), ∀ k < 8, (byteRead levels).getMsbD k = levels.getLsbD k) ∧
  (∀ (s : State) (g : SegId) (bit : Fin 9) (part : Part),
    let d := s.drive g bit part
    let released : Drive := ⟨false, false⟩
    let stop : Drive := match part with
      | .low => ⟨true, true⟩
      | .high => ⟨false, true⟩
      | .turned => ⟨false, false⟩
    let low := decide (part = .low)
    (s.resetn = false → d = released) ∧
    (s.resetn = true →
      ((s.seg g).engine = .off ∨ (s.seg g).engine = .idle ∨ (s.seg g).engine = .fault ∨ (s.seg g).engine = .check false →
        d = released) ∧
      ((s.seg g).engine = .check true ∨ (s.seg g).engine = .recover true → d = stop) ∧
      ((s.seg g).engine = .recover false → d = ⟨low, false⟩) ∧
      ∀ a, (s.seg g).engine = .run a →
        let r := s.slot a.slot
        let turns := a.failure.map Failure.kind = some .aborted ∧ a.phase ≠ .stop ∧ part ≠ .high
        (turns → d = stop) ∧
        (¬turns →
          (a.phase = .start → d = ⟨false, a.timing.isSome⟩) ∧
          (a.phase = .restart → d = if a.restarted then ⟨false, true⟩ else ⟨low, false⟩) ∧
          (a.phase = .stop → d = if a.following then released else stop) ∧
          (a.phase ≠ .start → a.phase ≠ .restart → a.phase ≠ .stop → d.clock = low) ∧
          (a.following = true → a.phase ≠ .start → a.phase ≠ .restart → d.data = false) ∧
          (a.following = false →
            (a.phase = .address ∨ a.phase = .subAddress ∨ a.phase = .write ∨ a.phase = .addressRead →
              (d.data = true ↔
                bit.val < 8 ∧ ((r.phaseBytes a.phase)[a.bytePos]?.getD 0).getMsbD bit.val = false)) ∧
            (a.phase = .read → (d.data = true ↔ bit.val = 8 ∧ a.bytePos + 1 < r.readLength.getD 0)))))) ∧
  ∀ r : Slot,
    let absent := r.subAddress = none
    let sevenBit := r.snapshot.form = .sevenBit
    let a := r.snapshot.address
    (r.operation = .read →
      (¬absent → r.phases = [.start, .address, .subAddress, .restart, .addressRead, .read, .stop]) ∧
      (absent → sevenBit → r.phases = [.start, .addressRead, .read, .stop]) ∧
      (absent → ¬sevenBit → r.phases = [.start, .address, .restart, .addressRead, .read, .stop])) ∧
    (r.operation = .write →
      (¬absent → r.phases = [.start, .address, .subAddress, .write, .stop]) ∧
      (absent → r.phases = [.start, .address, .write, .stop])) ∧
    (r.operation = .xfer →
      (¬absent → r.writeData ≠ [] →
        r.phases = [.start, .address, .subAddress, .write, .restart, .addressRead, .read, .stop]) ∧
      (¬absent → r.writeData = [] →
        r.phases = [.start, .address, .subAddress, .restart, .addressRead, .read, .stop]) ∧
      (absent → r.writeData ≠ [] → r.phases = [.start, .address, .write, .restart, .addressRead, .read, .stop]) ∧
      (absent → r.writeData = [] → r.phases = [.start, .address, .restart, .addressRead, .read, .stop])) ∧
    (r.operation = .probe → r.phases = [.start, .address, .stop]) ∧
    (∀ before x y after, r.phases = before ++ x :: y :: after → r.nextPhase x = y) ∧
    (sevenBit → r.phaseBytes .address = [byte (2 * a)] ∧ r.phaseBytes .addressRead = [byte (2 * a + 1)]) ∧
    (¬sevenBit → r.phaseBytes .address = [byte (0xF0 + a / 256 * 2), byte (a % 256)] ∧
      r.phaseBytes .addressRead = [byte (0xF0 + a / 256 * 2 + 1)]) ∧
    (∀ n, r.subAddress = some n →
      (r.snapshot.subWidth = 1 → r.phaseBytes .subAddress = [byte n]) ∧
      (r.snapshot.subWidth = 2 → r.phaseBytes .subAddress = [byte (n / 256), byte n])) ∧
    r.phaseBytes .write = r.writeData ∧
    [Phase.start, .address, .subAddress, .write, .restart, .addressRead, .read, .stop].map Phase.place =
      [.address, .address, .subAddress, .writeData, .stopOrRestart, .address, .readData, .stopOrRestart]

/-- The opening start (R61, R62, R68, R84, R86): one attempt counted, the setup record's timing put in force, the stretch
timeout and the clock phases captured, in sixteenths of a microsecond, and the monitor BUSY; the phase stays START until the
clock is driven low. An attempt that has opened opens no second time.
That the own start is seen in the same command, and that it counts the attempt, are the model's readings (log entries 10,
15); that an OPENING_START changes nothing once the attempt has opened, with the monitor not FREE or with a line low, is its
choice (log entry 2). -/
def Obligations.OpeningStartBeginsTheAttempt : Prop :=
  ∀ (g : SegId) (a : Attempt) (s : State), s.resetn = true → (s.seg g).engine = .run a →
    let v := s.seg g
    let r := s.slot a.slot
    let low := if r.snapshot.speed = .standard then 88 else 24
    let high := if r.snapshot.speed = .standard then 72 else 16
    (a.timing ≠ none ∨ v.monitor ≠ .free ∨ v.scl = false ∨ v.sda = false → exec (.openingStart g) s = .next s) ∧
    (a.timing = none → v.monitor = .free → v.scl = true → v.sda = true →
      ∃ t, exec (.openingStart g) s = .next t ∧
        t = (s.setSlot a.slot { r with attempts := r.attempts + 1 }).setSeg g (t.seg g) ∧
        v.Becomes { v.startSeen with
          inForce := v.setup.timing
          engine := .run { a with
            timing := some ⟨low * (8 + r.snapshot.slowDown) / 8, high * (8 + r.snapshot.slowDown) / 8,
              v.setup.timing.stretchTimeout⟩ } } (t.seg g))

/-- The acknowledge bit of each byte (R65 to R68, R71, R72, R74, R75, R88): the next byte or phase, a written byte counted, a
read byte kept, its bits most significant first, the first failure of a byte not acknowledged, or the loss of a sent 1 read
low or of a no-acknowledge read low. The line stands low where the engine acknowledges a read byte itself.
The model's readings: START and RESTART are over by then (log entry 11), and the levels of the data bits come with their
acknowledge bit (log entry 36). That the command changes nothing with a failure recorded, before the opening start and in
STOP is the model's choice (log entry 2), and so is that a loss its levels show leaves the clock seen low and the engine
following, the attempt not yet ended (R89; log entry 39). -/
def Obligations.AcknowledgeBitMovesTheAttempt : Prop :=
  ∀ (g : SegId) (a : Attempt) (data : Byte) (ninth : Bool) (s : State), s.resetn = true → (s.seg g).engine = .run a →
    (a.failure ≠ none ∨ a.timing = none ∨ a.phase = .stop → exec (.acknowledgeBitRead g data ninth) s = .next s) ∧
    (a.failure = none → a.timing ≠ none → a.phase ≠ .stop → a.phase ∈ (s.slot a.slot).phases →
      let r := s.slot a.slot
      let moves (c : Attempt) (ph : Phase) : Attempt := { c with phase := ph, restarted := false, bytePos := 0 }
      let b : Attempt := if a.phase = .start ∨ a.phase = .restart then moves a (r.nextPhase a.phase) else a
      let becomes (sda : Bool) (c : Attempt) : Prop := ∃ t, exec (.acknowledgeBitRead g data ninth) s = .next t ∧
        t = s.setSeg g (t.seg g) ∧ (s.seg g).Becomes { (s.seg g).lowSeen false sda with engine := .run c } (t.seg g)
      let next (c : Attempt) : Attempt :=
        if c.bytePos + 1 < (if c.phase = .read then r.readLength.getD 0 else (r.phaseBytes c.phase).length) then
          { c with bytePos := c.bytePos + 1 }
        else moves c (r.nextPhase c.phase)
      let fails (kind : FailKind) (place : Where) : Attempt := moves { b with failure := some ⟨kind, place⟩ } .stop
      let sent := (r.phaseBytes b.phase)[b.bytePos]?.getD 0
      let contradicted := ∃ k < 8, sent.getMsbD k = true ∧ data.getLsbD k = false
      (b.phase ≠ .read → contradicted →
        becomes ninth { b with failure := some ⟨.arbitrationLost, b.phase.place⟩, following := true }) ∧
      (¬contradicted →
        (b.phase = .address ∨ b.phase = .addressRead →
          becomes ninth (if ninth then fails .addressNack .address else next b)) ∧
        (b.phase = .subAddress → becomes ninth (if ninth then fails .dataNack .subAddress else next b)) ∧
        (b.phase = .write →
          becomes ninth (if ninth then fails .dataNack .writeData else next { b with written := b.written + 1 }))) ∧
      (b.phase = .read →
        let c : Attempt := { b with readData := b.readData ++ [byteRead data] }
        (b.bytePos + 1 < r.readLength.getD 0 → a.following = false → becomes false (next c)) ∧
        (r.readLength.getD 0 ≤ b.bytePos + 1 → becomes ninth
          (if ninth then next c else { c with failure := some ⟨.arbitrationLost, .readData⟩, following := true }))))

/-- Arbitration lost on the wire (R66, R72, R76, R88, R89, R90): within a byte, in a bit that the engine compares, the engine
follows, and a byte whose no-acknowledge is lost has been read; on a repeated start or a stop the attempt ends at once with
the loss; with a failure recorded the loss is the second, both are counted, and the engine goes to CHECK with stop owed as
it was (log entry 13). In any other bit nothing is compared and nothing changes.
Where a loss can be seen is the model's reading (log entry 12). -/
def Obligations.ArbitrationLostFollowsOrEnds : Prop :=
  ∀ (g : SegId) (a : Attempt) (how : LossCause) (s : State), s.resetn = true → (s.seg g).engine = .run a →
    let r := s.slot a.slot
    let b := a.past r
    let v := match how with
      | .dataLow _ _ => (s.seg g).lowSeen true false
      | .clockFell => (s.seg g).lowSeen false (s.seg g).sda
    let read := match how with
      | .dataLow _ data => if b.phase = .read then [byteRead data] else []
      | .clockFell => []
    let seen := b.phase = .restart ∨ b.phase = .stop ∨ ∃ (bit : Fin 9) (data : Byte), how = .dataLow bit data ∧
      ((b.phase = .address ∨ b.phase = .addressRead ∨ b.phase = .subAddress ∨ b.phase = .write) ∧ bit.val < 8 ∧
          ((r.phaseBytes b.phase)[b.bytePos]?.getD 0).getMsbD bit.val = true ∨
        b.phase = .read ∧ bit.val = 8 ∧ r.readLength.getD 0 ≤ b.bytePos + 1)
    (a.following = true ∨ ¬seen → exec (.arbitrationLost g how) s = .next s) ∧
    (a.following = false → seen →
      ∃ t, exec (.arbitrationLost g how) s = .next t ∧
        (a.failure = none → b.phase ≠ .restart → b.phase ≠ .stop → t = s.setSeg g (t.seg g) ∧
          (s.seg g).Becomes { v with
            engine := .run { b with
              readData := b.readData ++ read
              failure := some ⟨.arbitrationLost, b.phase.place⟩
              following := true } } (t.seg g)) ∧
        (a.failure = none → b.phase = .restart ∨ b.phase = .stop →
          s.Ended t g a (some ⟨.arbitrationLost, .stopOrRestart⟩) { v with
            engine := .idle
            counters := { v.counters with arbitrationLosses := bump v.counters.arbitrationLosses } }) ∧
        ∀ f, a.failure = some f → s.Ended t g a (some f) { v.checking with
          counters := (v.counters.countFail f.kind).countFail .arbitrationLost })

/-- A loss in START, when the monitor leaves FREE before the opening start, ends the attempt with no attempt counted (R87);
the following after a loss ends with that loss at the end of its byte, and at a start or a stop seen (R89, R90).
That no stop is seen in FREE is the model's choice (log entry 2). -/
def Obligations.LossesEndAtTheWire : Prop :=
  ∀ (g : SegId) (a : Attempt) (s : State), s.resetn = true → (s.seg g).engine = .run a →
    let v := s.seg g
    let lost := { v.counters with arbitrationLosses := bump v.counters.arbitrationLosses }
    (a.timing = none →
      (∃ t, exec (.monitorStartSeen g) s = .next t ∧ s.Ended t g a (some ⟨.arbitrationLost, .address⟩)
        { v.startSeen with engine := .idle, counters := lost }) ∧
      ∀ l : Levels, ¬(l.clock = true ∧ l.data = true) →
        ∃ t, exec (.lineLow g l) s = .next t ∧ s.Ended t g a (some ⟨.arbitrationLost, .address⟩)
          { v.lowSeen l.clock l.data with engine := .idle, counters := lost }) ∧
    ∀ place, a.failure = some ⟨.arbitrationLost, place⟩ → a.following = true →
      (∃ t, exec (.attemptEndsArbitrationLost g) s = .next t ∧
        s.Ended t g a (some ⟨.arbitrationLost, place⟩) { v with engine := .idle, counters := lost }) ∧
      (a.timing ≠ none → ∃ t, exec (.monitorStartSeen g) s = .next t ∧
        s.Ended t g a (some ⟨.arbitrationLost, place⟩) { v.startSeen with engine := .idle, counters := lost }) ∧
      (v.monitor ≠ .free → ∃ t, exec (.monitorStopSeen g) s = .next t ∧
        s.Ended t g a (some ⟨.arbitrationLost, place⟩) { v.stopSeen with engine := .idle, counters := lost })

/-- The stop of an attempt completes (R64, R73 to R75, R77, R80, R84): the monitor sees it, the pool takes the outcome, the
counter of the outcome goes up, and the engine goes to IDLE, or to CHECK after an abort, also from the phase in which it was
aborted (log entry 9). -/
def Obligations.StopsEndAttempts : Prop :=
  ∀ (g : SegId) (a : Attempt) (place : Where) (s : State), s.resetn = true → (s.seg g).engine = .run a →
    a.following = false →
    let v := (s.seg g).stopSeen
    let k := v.counters
    (a.phase = .stop →
      (a.failure = none → ∃ t, exec (.attemptEndsOk g) s = .next t ∧ s.Ended t g a none
        { v with engine := .idle, counters := { k with transactionsOk := bump k.transactionsOk } }) ∧
      (a.failure = some ⟨.addressNack, place⟩ →
        ∃ t, exec (.attemptEndsAddressNack g) s = .next t ∧ s.Ended t g a (some ⟨.addressNack, place⟩)
          { v with engine := .idle, counters := { k with addressNacks := bump k.addressNacks } }) ∧
      (a.failure = some ⟨.dataNack, place⟩ →
        ∃ t, exec (.attemptEndsDataNack g) s = .next t ∧ s.Ended t g a (some ⟨.dataNack, place⟩)
          { v with engine := .idle, counters := { k with dataNacks := bump k.dataNacks } })) ∧
    (a.failure = some ⟨.aborted, place⟩ →
      ∃ t, exec (.attemptEndsAborted g) s = .next t ∧ s.Ended t g a (some ⟨.aborted, place⟩) v.checking)

/-- A stretch timeout in RUN (R68, R76, R94, R100, R101): the first failure, with the where code of the phase that the low clock
leaves, or the second beside the first, each counted by its kind; no stop is made, stop owed is set unless the engine was
following, and CHECK begins with its clock-held timer.
Before the opening start the engine has released no clock, and the command changes nothing: the model's choice (log entry
2). That a made start is over when the clock is low is its reading (log entry 11). -/
def Obligations.StretchTimeoutEndsTheAttempt : Prop :=
  ∀ (g : SegId) (a : Attempt) (s : State), s.resetn = true → (s.seg g).engine = .run a →
    let v := (s.seg g).lowSeen false (s.seg g).sda
    let k := v.counters
    let place := (a.past (s.slot a.slot)).phase.place
    (a.timing = none → exec (.stretchTimeout g) s = .next s) ∧
    (a.timing ≠ none → ∃ t, exec (.stretchTimeout g) s = .next t ∧
      (t.seg g).quietTimer = none ∧ (t.seg g).dataHeldTimer = none ∧
      (t.seg g).clockHeldTimer = some v.setup.timing.stretchTimeout ∧
      (a.failure = none → s.Ended t g a (some ⟨.stretchTimeout, place⟩) { v.checking with
        stopOwed := true, counters := { k with stretchTimeouts := bump k.stretchTimeouts } }) ∧
      ∀ f, a.failure = some f → s.Ended t g a (some f) { v.checking with
        stopOwed := v.stopOwed || !a.following
        counters := (k.countFail f.kind).countFail .stretchTimeout }) ∧
    ∀ c : SegCounters, c.countFail .addressNack = { c with addressNacks := bump c.addressNacks } ∧
      c.countFail .dataNack = { c with dataNacks := bump c.dataNacks } ∧
      c.countFail .arbitrationLost = { c with arbitrationLosses := bump c.arbitrationLosses } ∧
      c.countFail .stretchTimeout = { c with stretchTimeouts := bump c.stretchTimeouts } ∧ c.countFail .aborted = c ∧
      ∀ n : Count, (bump n).toNat = min 65535 (n.toNat + 1)

/-! ## The bus monitor -/

/-- The monitor's table (R84, R85) where it ends no attempt: starts, stops, line lows, both lines high, and the expiry of the
bus-free timer, with the engine in any state; the check timers and the busy-long timer start and stop as their conditions do
(R96, R101). A start seen in RESTART is the engine's own (R63); the clock seen low ends START and RESTART once their start
has been made, and turns an abort to its stop where it was seen high before (R68, R80). O43 has the attempts that a start, a
stop or a line low ends.
The model's choices: a stop cannot be seen in FREE (log entry 2), lines are as last seen (log entry 9), and a condition is
over when its low clock is seen (log entries 11, 14). In a closing stop the check timers stand still, also for a line seen low
or both seen high there: the model's reading of R101 and R102 (log entry 16). -/
def Obligations.MonitorFollowsTheWire : Prop :=
  ∀ (g : SegId) (s : State), s.resetn = true →
    let v := s.seg g
    let becomes (c : Instr) (w : Seg) : Prop := ∃ t, exec c s = .next t ∧ t = s.setSeg g (t.seg g) ∧ v.Becomes w (t.seg g)
    let opened := ∀ a, v.engine = .run a → a.timing ≠ none
    let driving := ∀ a, v.engine = .run a → a.following = false
    (opened → driving →
      ((∀ a, v.engine = .run a → a.phase ≠ .restart ∨ a.failure ≠ none) → becomes (.monitorStartSeen g) v.startSeen) ∧
      ∀ a, v.engine = .run a → a.phase = .restart → a.failure = none →
        becomes (.monitorStartSeen g) { v.startSeen with engine := .run { a with restarted := true } }) ∧
    (v.monitor = .free → exec (.monitorStopSeen g) s = .next s) ∧
    (v.monitor ≠ .free → driving → becomes (.monitorStopSeen g) v.stopSeen) ∧
    (opened → ∀ data,
      becomes (.lineLow g ⟨true, false⟩) (v.lowSeen true false) ∧
      (v.engine.isRun = false → becomes (.lineLow g ⟨false, data⟩) (v.lowSeen false data)) ∧
      ∀ a, v.engine = .run a →
        let aborted := a.failure.map Failure.kind = some .aborted
        (v.scl = true ∨ ¬aborted →
          becomes (.lineLow g ⟨false, data⟩) { v.lowSeen false data with engine := .run (a.past (s.slot a.slot)) }) ∧
        (v.scl = false → aborted → becomes (.lineLow g ⟨false, data⟩) (v.lowSeen false data))) ∧
    exec (.lineLow g ⟨true, true⟩) s = .next s ∧
    becomes (.bothLinesHigh g) { v with
      scl := true, sda := true
      busFreeTimer := if v.monitor = .settling ∧ v.busFreeTimer = none then some v.inForce.busFreeWait
                      else v.busFreeTimer } ∧
    (v.busFreeTimer = none → exec (.busFreeTimerExpiry g) s = .next s) ∧
    (v.busFreeTimer.isSome = true →
      becomes (.busFreeTimerExpiry g) { v with busFreeTimer := none, monitor := .free })

/-- The first expiry of the busy-long timer in a BUSY period is counted and noticed to every port whose mask selects it; a
later one is neither (R97). -/
def Obligations.BusyLongIsReportedOnce : Prop :=
  ∀ (g : SegId) (s : State), s.resetn = true → (∀ q, (s.port q).Served) → (s.seg g).busyLongTimer.isSome = true →
    let v := s.seg g
    (v.busyLongReported = false → exec (.busyLongTimerExpiry g) s = .next
      ((s.withPorts fun q => (s.port q).noticedIf .busyLong (if g = .A then 0 else 1)).setSeg g { v with
        busyLongTimer := none
        busyLongReported := true
        counters := { v.counters with busyLongEvents := bump v.counters.busyLongEvents } })) ∧
    (v.busyLongReported = true →
      exec (.busyLongTimerExpiry g) s = .next (s.setSeg g { v with busyLongTimer := none }))

/-! ## Checking and recovering a bus -/

/-- The quiet timer's expiry takes the engine to IDLE, or to a closing stop when a stop is owed, and the closing stop that
completes takes it to IDLE (R101, R102, R103).
That the low lines of a closing stop are seen in the command that begins it is the model's reading (log entry 32), and so is
that the check timers stand still during a closing stop, with its clock seen low (log entry 16). -/
def Obligations.QuietLinesReachIdle : Prop :=
  ∀ (g : SegId) (s : State), s.resetn = true → (∀ q, (s.port q).Served) →
    let v := s.seg g
    (v.quietTimer.isSome = true →
      (v.stopOwed = false → ∃ t, exec (.quietTimerExpiry g) s = .next t ∧ s.Idled t g v) ∧
      (v.stopOwed = true → ∃ t, exec (.quietTimerExpiry g) s = .next t ∧ t = s.setSeg g (t.seg g) ∧
        v.Becomes { v.lowSeen false false with engine := .check true } (t.seg g))) ∧
    (v.engine = .check true → ∃ t, exec (.closingStopComplete g) s = .next t ∧ s.Idled t g v.stopSeen)

/-- The ways into FAULT (R102, R105, R106, R107): the clock held in CHECK, in a closing stop or in RECOVER, the ninth pulse
with the data line low, a recovery stop that fails after nine pulses; each answers the list SEGFAULT, an outstanding
recovery FAILED, and creates the SEG_FAULT notices, in that order (R54). -/
def Obligations.FaultAnswersTheList : Prop :=
  ∀ (g : SegId) (s : State), s.resetn = true → s.PoolFits → (∀ q, (s.port q).Served) →
    let v := s.seg g
    let faults (c : Instr) (w : Seg) : Prop := ∃ t, exec c s = .next t ∧ s.Faulted t g w
    (v.clockHeldTimer.isSome = true → faults (.clockHeldTimerExpiry g) v) ∧
    (v.engine = .check true → faults (.closingStopFails g .clockHeld) (v.lowSeen false v.sda)) ∧
    (∀ b, v.engine = .recover b → faults (.recoveryClockHeld g) (v.lowSeen false v.sda)) ∧
    (v.engine = .recover false → v.pulseCount = 8 →
      faults (.releasePulse g false) { v.lowSeen true false with pulseCount := 9 }) ∧
    (v.engine = .recover true → v.pulseCount = 9 →
      faults (.recoveryStopComplete g .dataNotHigh) (v.lowSeen true false) ∧
      faults (.recoveryStopComplete g .clockFell) (v.lowSeen false false))

/-- A held data line leads to RECOVER with ready owed (R101, R104); a pulse that reads the line high leads to the recovery
stop, one of the first eight that reads it low to the next pulse (R105); the stop that completes leads to CHECK, one that
fails with fewer than nine pulses to a further pulse (R106); a closing stop that fails begins the check timers afresh
(R102).
That a pulse's low clock is seen is the model's reading (log entry 32). -/
def Obligations.RecoveryPulsesAndStops : Prop :=
  ∀ (g : SegId) (s : State), s.resetn = true →
    let v := s.seg g
    let becomes (c : Instr) (w : Seg) : Prop :=
      ∃ t, exec c s = .next t ∧ t = s.setSeg g (t.seg g) ∧ v.Becomes w (t.seg g)
    let checks (c : Instr) (w : Seg) (quiet dataHeld clockHeld : Option Nat) : Prop :=
      ∃ t, exec c s = .next t ∧ t = s.setSeg g (t.seg g) ∧ v.Becomes w (t.seg g) ∧
        (t.seg g).quietTimer = quiet ∧ (t.seg g).dataHeldTimer = dataHeld ∧ (t.seg g).clockHeldTimer = clockHeld
    (v.dataHeldTimer.isSome = true → becomes (.dataHeldTimerExpiry g) { v.recovering with readyOwed := true }) ∧
    (v.engine = .recover false →
      becomes (.releasePulse g true)
        { v.lowSeen false false with engine := .recover true, pulseCount := v.pulseCount + 1 } ∧
      (v.pulseCount < 8 → becomes (.releasePulse g false)
        { v.lowSeen false false with pulseCount := v.pulseCount + 1 })) ∧
    (v.engine = .recover true →
      checks (.recoveryStopComplete g .complete) v.stopSeen.checking (some v.setup.timing.busFreeWait) none none ∧
      (v.pulseCount < 9 →
        becomes (.recoveryStopComplete g .dataNotHigh) { v.lowSeen false false with engine := .recover false } ∧
        becomes (.recoveryStopComplete g .clockFell) { v.lowSeen false false with engine := .recover false })) ∧
    (v.engine = .check true →
      checks (.closingStopFails g .dataNotHigh) { v.lowSeen true false with engine := .check false } none (some 1) none ∧
      checks (.closingStopFails g .clockFell) { v.lowSeen false v.sda with engine := .check false } none none
        (some v.inForce.stretchTimeout))

/-! ## The completion of a transmission -/

/-- The completion of a message (R37, R129, R130, R161, R190): its item leaves the queue, its slot or entry is released, a
switch whose point it is is applied, and the next head is taken up; the reply to a RESTART begins the general restart,
which leaves what the end of a device reset with the lines as they stand leaves. TRANSMITTER_HELD ends the character that
a break let finish (R119, R124; log entry 17). -/
def Obligations.CompletionReleasesTheHeadItem : Prop :=
  ∀ (p : PortId) (s : State), s.resetn = true →
    let v := s.port p
    (∀ item rest, v.tx = .sending → v.queue = item :: rest →
      let pool : State := match item with
        | .result i => s.setSlot i Slot.cleared
        | .entry _ => s
      let freed : Port := { v with
        queue := rest, tx := .idle, txFrame := []
        store := match item with
          | .result _ => v.store
          | .entry e => v.store.set e.val none e.isLt }
      let frame := fun i => (pool.slot i).resultFrame
      let due (w : PendingSwitch) : Prop := w.point = .messageSent ∨ ∃ e, w.point = .replySent e ∧ item = .entry e
      ((∀ e x, item = .entry e → v.store[e] = some x → x.restartReply = false) →
        ((∀ w, v.pendingSwitch = some w → ¬due w) →
          exec (.messageTransmitted p) s = .next (pool.setPort p (freed.takesUp frame))) ∧
        ∀ w, v.pendingSwitch = some w → due w →
          exec (.messageTransmitted p) s = .next (pool.setPort p ((freed.switched w.format).takesUp frame))) ∧
      ∀ e x, item = .entry e → v.store[e] = some x → x.restartReply = true →
        exec (.messageTransmitted p) s = exec (.deviceResetEnd ⟨s.segA.scl, s.segA.sda⟩ ⟨s.segB.scl, s.segB.sda⟩)
          { s with resetn := false }) ∧
    (v.tx = .finishing →
      (v.receiver = .breakHold →
        exec (.transmitterHeld p) s = .next (s.setPort p { v with txFormat := v.format, txFrame := [], tx := .held })) ∧
      (v.receiver ≠ .breakHold → exec (.transmitterHeld p) s = .next (s.setPort p
        (({ v with txFormat := v.format, txFrame := [], tx := .idle } : Port).takesUp fun i => (s.slot i).resultFrame))))

/-! ## What holds of the part between two events -/

/-- The state after reset satisfies every invariant of the part (R5, R22, R40, R59, R83, R115, R133, R170, R171).
The line levels in it are the model's choice (log entry 21). -/
def Obligations.ResetIsLegal : Prop :=
  State.reset.Legal

/-- Every step keeps the timers of the segments fitted to their lines and states (R84, R85, R96, R101, R115).
That the check timers stand still during a closing stop is the model's reading (log entry 16). -/
def Obligations.TimersStayFitted : Prop :=
  ∀ s t : State, s.TimersFit → step s = .next t → t.TimersFit

/-- Every step keeps the map within the ranges of R3 and R4, and some port a manager (R171, R172). -/
def Obligations.MapAndManagersStayLegal : Prop :=
  ∀ s t : State, step s = .next t → (s.MapFits → t.MapFits) ∧ (s.Managed → t.Managed)

/-- Every step keeps the slot pool, the pending lists, the engines and the queues in agreement (R22 to R24, R30, R41, R54,
R58, R158). -/
def Obligations.PoolStaysFitted : Prop :=
  ∀ s t : State, s.Legal → step s = .next t → t.PoolFits

/-- Every step keeps each port's line, queue and store in agreement, and the reserved entries those of the outstanding
recoveries (R99, R119, R129, R136, R158, R160, R162, R164).
That assembly is idle in break hold, also where it was hunting before, is the model's choice (log entry 38). -/
def Obligations.StoresStayFitted : Prop :=
  ∀ s t : State, s.Legal → step s = .next t → t.StoresFit

/-- Every step keeps requests, running attempts and results within the manual's bounds and tables (R19 to R21, R67, R71 to
R73, R78). -/
def Obligations.TransfersStayFitted : Prop :=
  ∀ s t : State, s.Legal → step s = .next t → t.TransfersFit

/-- The bounds the manual draws from its laws: at most 14 items in a queue and 8 slots for a port (R23, R158), one ACTIVE
request for a segment (R30), at most 15 attempts and 8 losses for a request (R33, R78), an OK result whose written count is
its write length and whose read data is its read length (R21). -/
def Obligations.LegalStatesKeepTheBounds : Prop :=
  ∀ s : State, s.Legal →
    (∀ p, (s.port p).queue.length ≤ 14 ∧ (s.port p).queue.Nodup ∧ s.occupied p ≤ 8) ∧
    (∀ i j, (s.slot i).state = .active → (s.slot j).state = .active →
      (s.slot i).snapshot.segment = (s.slot j).snapshot.segment → i = j) ∧
    (∀ g, (s.seg g).list.Nodup ∧ (s.seg g).list.length ≤ 24) ∧
    ∀ i, (s.slot i).attempts ≤ 15 ∧ (s.slot i).losses ≤ 8 ∧
      ∀ res, (s.slot i).result = some res → res.status = .ok →
        res.written = (s.slot i).writeData.length ∧ res.readData.length = (s.slot i).readLength.getD 0

/-- An event of one segment reaches nothing of the other: its engine, monitor, list and requests stay, and so do the map, the
managers, and every port's line side, profile and counters but that of dropped notices (R41, R98, and section 3 of the
scope file). -/
def Obligations.SegmentsAreIndependent : Prop :=
  ∀ (c : Instr) (g h : SegId) (s t : State), segmentOf c = some g → h ≠ g → s.PoolFits → exec c s = .next t →
    t.seg h = s.seg h ∧ t.map = s.map ∧ t.managers = s.managers ∧ t.nextAdmission = s.nextAdmission ∧
    (∀ i, (s.slot i).state = .free ∨ (s.slot i).snapshot.segment = h → t.slot i = s.slot i) ∧
    ∀ p, t.port p = { s.port p with
      tx := (t.port p).tx
      txFrame := (t.port p).txFrame
      queue := (t.port p).queue
      store := (t.port p).store
      noticeSeq := (t.port p).noticeSeq
      counters := { (s.port p).counters with noticesDropped := (t.port p).counters.noticesDropped } }

/-- A map entry changes only at a manager's MAP_WRITE or MAP_RETIRE, the set of managers only at a manager's PORT_SET,
and either also at a character received on a manager's port, at a reset, and at the completion of a RESTART's reply (R5,
R15, R16, R147, R171). Which frame such a character completes this does not say: O9 and O15 do. -/
def Obligations.OnlyManagersChangeMapAndManagers : Prop :=
  ∀ (c : Instr) (s t : State), exec c s = .next t →
    let restarts := c = .deviceReset ∨ (∃ a b, c = .deviceResetEnd a b) ∨
      ∃ p e x rest, c = .messageTransmitted p ∧ (s.port p).queue = .entry e :: rest ∧ (s.port p).store[e] = some x ∧
        x.restartReply = true
    let byCharacter := ∃ p ch, c = .characterReceived p ch ∧ hasPort s.managers p = true
    (t.map ≠ s.map → restarts ∨ byCharacter ∨
      ∃ p tag args, hasPort s.managers p = true ∧ (c = .mapWrite p tag args ∨ c = .mapRetire p tag args)) ∧
    (t.managers ≠ s.managers → restarts ∨ byCharacter ∨
      ∃ p tag args, hasPort s.managers p = true ∧ c = .portSet p tag args)
end

