-- ==== Sys2Proof/Laws/State.lean ====
section
/-! SUPPORT. What each access of the state reads after each update: one small lemma per block read and block written. -/
namespace Sys2Proof.Machine

variable (s : State)

/-! ## Reading a block back -/

@[simp] theorem ports_get (p : PortId) : s.ports[p] = s.port p := rfl
@[simp] theorem slots_get (i : SlotId) : s.slots[i] = s.slot i := rfl
@[simp] theorem map_get (t : TargetId) : s.map[t] = s.mapEntry t := rfl
theorem segA_get : s.segA = s.seg .A := rfl
theorem segB_get : s.segB = s.seg .B := rfl

@[simp] theorem port_setPort (p : PortId) (v : Port) : (s.setPort p v).port p = v := by
  simp [State.port, State.setPort, -ports_get]

theorem port_setPort_ne {p q : PortId} (v : Port) (h : q ≠ p) : (s.setPort p v).port q = s.port q := by
  have h' : p.val ≠ q.val := fun e => h (Fin.ext e.symm)
  simp [State.port, State.setPort, -ports_get, Vector.getElem_set_ne _ _ h']

theorem port_setPort_eq (p q : PortId) (v : Port) : (s.setPort p v).port q = if q = p then v else s.port q := by
  split
  · next h => rw [h, port_setPort]
  · next h => exact port_setPort_ne s v h

@[simp] theorem slot_setSlot (i : SlotId) (r : Slot) : (s.setSlot i r).slot i = r := by
  simp [State.slot, State.setSlot, -slots_get]

theorem slot_setSlot_ne {i j : SlotId} (r : Slot) (h : j ≠ i) : (s.setSlot i r).slot j = s.slot j := by
  have h' : i.val ≠ j.val := fun e => h (Fin.ext e.symm)
  simp [State.slot, State.setSlot, -slots_get, Vector.getElem_set_ne _ _ h']

theorem slot_setSlot_eq (i j : SlotId) (r : Slot) : (s.setSlot i r).slot j = if j = i then r else s.slot j := by
  split
  · next h => rw [h, slot_setSlot]
  · next h => exact slot_setSlot_ne s r h

@[simp] theorem mapEntry_setMapEntry (t : TargetId) (e : MapEntry) : (s.setMapEntry t e).mapEntry t = e := by
  simp [State.mapEntry, State.setMapEntry, -map_get]

theorem mapEntry_setMapEntry_ne {t u : TargetId} (e : MapEntry) (h : u ≠ t) :
    (s.setMapEntry t e).mapEntry u = s.mapEntry u := by
  have h' : t.val ≠ u.val := fun e => h (Fin.ext e.symm)
  simp [State.mapEntry, State.setMapEntry, -map_get, Vector.getElem_set_ne _ _ h']

@[simp] theorem seg_setSeg (g : SegId) (v : Seg) : (s.setSeg g v).seg g = v := by cases g <;> rfl

theorem seg_setSeg_ne {g h : SegId} (v : Seg) (hn : h ≠ g) : (s.setSeg g v).seg h = s.seg h := by
  cases g <;> cases h <;> first | rfl | exact absurd rfl hn

theorem seg_setSeg_eq (g h : SegId) (v : Seg) : (s.setSeg g v).seg h = if h = g then v else s.seg h := by
  split
  · next e => rw [e, seg_setSeg]
  · next e => exact seg_setSeg_ne s v e

/-! ## What an update leaves -/

section
variable (p : PortId) (v : Port) (i : SlotId) (r : Slot) (g : SegId) (w : Seg) (t : TargetId) (e : MapEntry)

@[simp] theorem slot_setPort (j : SlotId) : (s.setPort p v).slot j = s.slot j := rfl
@[simp] theorem seg_setPort (h : SegId) : (s.setPort p v).seg h = s.seg h := by cases h <;> rfl
@[simp] theorem mapEntry_setPort (u : TargetId) : (s.setPort p v).mapEntry u = s.mapEntry u := rfl
@[simp] theorem map_setPort : (s.setPort p v).map = s.map := rfl
@[simp] theorem slots_setPort : (s.setPort p v).slots = s.slots := rfl
@[simp] theorem managers_setPort : (s.setPort p v).managers = s.managers := rfl
@[simp] theorem pending_setPort : (s.setPort p v).pending = s.pending := rfl
@[simp] theorem resetn_setPort : (s.setPort p v).resetn = s.resetn := rfl
@[simp] theorem nextAdmission_setPort : (s.setPort p v).nextAdmission = s.nextAdmission := rfl
@[simp] theorem freeCount_setPort : (s.setPort p v).freeCount = s.freeCount := rfl

@[simp] theorem port_setSlot (q : PortId) : (s.setSlot i r).port q = s.port q := rfl
@[simp] theorem seg_setSlot (h : SegId) : (s.setSlot i r).seg h = s.seg h := by cases h <;> rfl
@[simp] theorem mapEntry_setSlot (u : TargetId) : (s.setSlot i r).mapEntry u = s.mapEntry u := rfl
@[simp] theorem map_setSlot : (s.setSlot i r).map = s.map := rfl
@[simp] theorem ports_setSlot : (s.setSlot i r).ports = s.ports := rfl
@[simp] theorem managers_setSlot : (s.setSlot i r).managers = s.managers := rfl
@[simp] theorem pending_setSlot : (s.setSlot i r).pending = s.pending := rfl
@[simp] theorem resetn_setSlot : (s.setSlot i r).resetn = s.resetn := rfl
@[simp] theorem nextAdmission_setSlot : (s.setSlot i r).nextAdmission = s.nextAdmission := rfl
@[simp] theorem freeCount_setSlot : (s.setSlot i r).freeCount = s.freeCount := rfl

@[simp] theorem port_setSeg (q : PortId) : (s.setSeg g w).port q = s.port q := by cases g <;> rfl
@[simp] theorem slot_setSeg (j : SlotId) : (s.setSeg g w).slot j = s.slot j := by cases g <;> rfl
@[simp] theorem mapEntry_setSeg (u : TargetId) : (s.setSeg g w).mapEntry u = s.mapEntry u := by cases g <;> rfl
@[simp] theorem map_setSeg : (s.setSeg g w).map = s.map := by cases g <;> rfl
@[simp] theorem ports_setSeg : (s.setSeg g w).ports = s.ports := by cases g <;> rfl
@[simp] theorem slots_setSeg : (s.setSeg g w).slots = s.slots := by cases g <;> rfl
@[simp] theorem managers_setSeg : (s.setSeg g w).managers = s.managers := by cases g <;> rfl
@[simp] theorem pending_setSeg : (s.setSeg g w).pending = s.pending := by cases g <;> rfl
@[simp] theorem resetn_setSeg : (s.setSeg g w).resetn = s.resetn := by cases g <;> rfl
@[simp] theorem nextAdmission_setSeg : (s.setSeg g w).nextAdmission = s.nextAdmission := by cases g <;> rfl
@[simp] theorem freeCount_setSeg : (s.setSeg g w).freeCount = s.freeCount := by cases g <;> rfl

@[simp] theorem port_setMapEntry (q : PortId) : (s.setMapEntry t e).port q = s.port q := rfl
@[simp] theorem slot_setMapEntry (j : SlotId) : (s.setMapEntry t e).slot j = s.slot j := rfl
@[simp] theorem seg_setMapEntry (h : SegId) : (s.setMapEntry t e).seg h = s.seg h := by cases h <;> rfl
@[simp] theorem ports_setMapEntry : (s.setMapEntry t e).ports = s.ports := rfl
@[simp] theorem slots_setMapEntry : (s.setMapEntry t e).slots = s.slots := rfl
@[simp] theorem managers_setMapEntry : (s.setMapEntry t e).managers = s.managers := rfl
@[simp] theorem pending_setMapEntry : (s.setMapEntry t e).pending = s.pending := rfl
@[simp] theorem resetn_setMapEntry : (s.setMapEntry t e).resetn = s.resetn := rfl
@[simp] theorem nextAdmission_setMapEntry : (s.setMapEntry t e).nextAdmission = s.nextAdmission := rfl
@[simp] theorem freeCount_setMapEntry : (s.setMapEntry t e).freeCount = s.freeCount := rfl

/-! ## Updates of one block meet -/

@[simp] theorem setPort_setPort (v' : Port) : (s.setPort p v).setPort p v' = s.setPort p v' := by
  simp [State.setPort, Vector.set_set]

@[simp] theorem setPort_port : s.setPort p (s.port p) = s := by
  simp [State.setPort, State.port, -ports_get]

@[simp] theorem setSlot_setSlot (r' : Slot) : (s.setSlot i r).setSlot i r' = s.setSlot i r' := by
  simp [State.setSlot, Vector.set_set]

@[simp] theorem setSlot_slot : s.setSlot i (s.slot i) = s := by
  simp [State.setSlot, State.slot, -slots_get]

@[simp] theorem setSeg_setSeg (w' : Seg) : (s.setSeg g w).setSeg g w' = s.setSeg g w' := by cases g <;> rfl

@[simp] theorem setSeg_seg : s.setSeg g (s.seg g) = s := by cases g <;> rfl

theorem setSlot_setPort : (s.setPort p v).setSlot i r = (s.setSlot i r).setPort p v := rfl
theorem setSeg_setPort : (s.setPort p v).setSeg g w = (s.setSeg g w).setPort p v := by cases g <;> rfl
theorem setSeg_setSlot : (s.setSlot i r).setSeg g w = (s.setSeg g w).setSlot i r := by cases g <;> rfl
theorem setMapEntry_setPort : (s.setPort p v).setMapEntry t e = (s.setMapEntry t e).setPort p v := rfl

end

/-! ## Two states with the same blocks -/

/-- A state is its blocks: the way to prove a next state equal to one told block by block. -/
theorem State.ext_blocks {s t : State} (pending : s.pending = t.pending) (resetn : s.resetn = t.resetn)
    (map : ∀ u, s.mapEntry u = t.mapEntry u) (slots : ∀ i, s.slot i = t.slot i) (segs : ∀ g, s.seg g = t.seg g)
    (ports : ∀ p, s.port p = t.port p) (managers : s.managers = t.managers)
    (admissions : s.nextAdmission = t.nextAdmission) (frees : s.freeCount = t.freeCount) : s = t := by
  obtain ⟨_, _, _, _, _, _, _, _, _, _⟩ := s
  obtain ⟨_, _, _, _, _, _, _, _, _, _⟩ := t
  have hm := Vector.ext fun k hk => map ⟨k, hk⟩
  have hs := Vector.ext fun k hk => slots ⟨k, hk⟩
  have hp := Vector.ext fun k hk => ports ⟨k, hk⟩
  have hA := segs .A
  have hB := segs .B
  cases hm; cases hs; cases hp; cases hA; cases hB
  cases pending; cases resetn; cases managers; cases admissions; cases frees
  rfl

end Sys2Proof.Machine
end

