-- ==== Sys2Proof/Laws/Fits.lean ====
section
/-! SUPPORT. The invariants of Safety.lean in a form that a concrete state can be evaluated against, and what each of them
asks of a segment or a port that is replaced. -/
namespace Sys2Proof.Machine

variable {s : State}

/-! ## A statement about the two segments -/

theorem forall_seg {P : SegId → Prop} (a : P .A) (b : P .B) : ∀ g, P g := fun g => by cases g <;> assumption

/-- Whether the attempt that an engine runs, if it runs one, is one that `f` accepts. -/
def Engine.runs (n : Engine) (f : Attempt → Bool) : Bool :=
  match n with
  | .run a => f a
  | _ => true

/-- A statement about the attempt of a segment is one about its engine. -/
theorem forall_run {v : Seg} {P : Attempt → Prop} [DecidablePred P]
    (h : (v.engine.runs fun a => decide (P a)) = true) : ∀ a, v.engine = .run a → P a := by
  intro a ha
  rw [ha] at h
  exact of_decide_eq_true h

/-! ## The slot pool -/

/-- A request record fits its state, as one evaluable conjunction. -/
def Slot.fitsB (r : Slot) : Bool :=
  decide (r.state = .free → r = Slot.cleared) && decide (r.orphan = true → r.state = .active) &&
    decide (r.result.isSome = true ↔ r.state = .answer) && decide (r.retryTimer.isSome = true ↔ r.state = .deferred) &&
    decide (r.lifetimeTimer.isSome = true → r.waiting = true ∨ r.state = .active) &&
    decide (r.deadlinePassed = true → r.waiting = false)

theorem Slot.fits_of {r : Slot} (h : r.fitsB = true) : r.Fits := by
  simp only [Slot.fitsB, Bool.and_eq_true, decide_eq_true_eq] at h
  obtain ⟨⟨⟨⟨⟨h1, h2⟩, h3⟩, h4⟩, h5⟩, h6⟩ := h
  exact ⟨h1, h2, h3, h4, h5, h6⟩

/-- What the pool asks of one segment (R30, R41, R54). -/
def State.listFits (s : State) (g : SegId) : Prop :=
  (∀ i, i ∈ (s.seg g).list ↔ (s.slot i).waiting = true ∧ (s.slot i).snapshot.segment = g) ∧
    ((s.seg g).list.Pairwise fun i j => (s.slot i).admission < (s.slot j).admission) ∧
    ((s.seg g).engine.runs fun a =>
      decide ((s.slot a.slot).state = .active ∧ (s.slot a.slot).snapshot.segment = g)) = true ∧
    ((s.seg g).engine.down = true → (s.seg g).list = [])

/-- The pool fits when its parts do. -/
theorem poolFits_of (slots : ∀ i, (s.slot i).fitsB = true)
    (numbered : ∀ i, (s.slot i).occupied = true → (s.slot i).admission < s.nextAdmission)
    (distinct : ∀ i j, (s.slot i).occupied = true → (s.slot j).occupied = true →
      (s.slot i).admission = (s.slot j).admission → i = j)
    (a : s.listFits .A) (b : s.listFits .B)
    (active : ∀ i, (s.slot i).state = .active →
      ((s.seg (s.slot i).snapshot.segment).engine = .run
        (match (s.seg (s.slot i).snapshot.segment).engine with
          | .run a => { a with slot := i }
          | _ => ⟨i, .start, false, 0, 0, [], none, false, none⟩)))
    (queued : ∀ p i, (s.port p).queue.count (.result i) =
      if (s.slot i).state = .answer ∧ (s.slot i).owner = p then 1 else 0)
    (window : ∀ p, s.occupied p ≤ Config.window)
    (tags : ∀ i j, (s.slot i).live = true → (s.slot j).live = true → (s.slot i).owner = (s.slot j).owner →
      (s.slot i).tag = (s.slot j).tag → i = j) : s.PoolFits where
  slots i := Slot.fits_of (slots i)
  numbered := numbered
  distinct := distinct
  listed := forall_seg a.1 b.1
  aged := forall_seg a.2.1 b.2.1
  running g := by
    cases g
    · exact forall_run a.2.2.1
    · exact forall_run b.2.2.1
  active i h := by
    have := active i h
    revert this
    split
    · exact fun e => ⟨_, e, rfl⟩
    · exact fun e => ⟨_, e, rfl⟩
  down := forall_seg a.2.2.2 b.2.2.2
  queued := queued
  window := window
  tags := tags

/-- The pool asks of a segment only its list and its running attempt; an engine that neither runs nor is down may take any
other such state. -/
theorem State.PoolFits.setSeg {g : SegId} {v : Seg} (h : s.PoolFits) (hl : v.list = (s.seg g).list)
    (hr : (s.seg g).engine.isRun = false) (hv : v.engine.isRun = false) (hd : v.engine.down = false) :
    (s.setSeg g v).PoolFits where
  slots := by simpa using h.slots
  numbered := by simpa using h.numbered
  distinct := by simpa using h.distinct
  listed k i := by
    rw [seg_setSeg_eq, slot_setSeg]
    split
    · next e => rw [hl, e]; exact h.listed g i
    · exact h.listed k i
  aged k := by
    rw [seg_setSeg_eq]
    simp only [slot_setSeg]
    split
    · rw [hl]; exact h.aged g
    · exact h.aged k
  running k a := by
    rw [seg_setSeg_eq]
    simp only [slot_setSeg]
    split
    · intro e; simp [e, Engine.isRun] at hv
    · exact h.running k a
  active i hi := by
    rw [slot_setSeg] at hi
    obtain ⟨a, ha, e⟩ := h.active i hi
    refine ⟨a, ?_, e⟩
    rw [slot_setSeg, seg_setSeg_eq]
    split
    · next eg => rw [eg] at ha; simp [ha, Engine.isRun] at hr
    · exact ha
  down k hk := by
    rw [seg_setSeg_eq] at hk ⊢
    split at hk
    · simp [hd] at hk
    · next e => rw [if_neg e]; exact h.down k hk
  queued := by simpa using h.queued
  window p := by simpa [State.occupied] using h.window p
  tags := by simpa using h.tags

/-- The pool asks of a request record that fits only its state, whether it is an orphan, its owner, tag, place and segment. -/
theorem State.PoolFits.setSlot {i : SlotId} {r : Slot} (h : s.PoolFits) (hr : r.Fits) (hs : r.state = (s.slot i).state)
    (ho : r.owner = (s.slot i).owner) (hx : r.orphan = false → (s.slot i).orphan = false) (ht : r.tag = (s.slot i).tag)
    (ha : r.admission = (s.slot i).admission) (hg : r.snapshot.segment = (s.slot i).snapshot.segment) :
    (s.setSlot i r).PoolFits := by
  have state j : ((s.setSlot i r).slot j).state = (s.slot j).state := by
    rw [slot_setSlot_eq]; split <;> simp_all
  have owner j : ((s.setSlot i r).slot j).owner = (s.slot j).owner := by
    rw [slot_setSlot_eq]; split <;> simp_all
  have live j : ((s.setSlot i r).slot j).live = true → (s.slot j).live = true := by
    rw [slot_setSlot_eq]; split <;> simp_all [Slot.live, Slot.occupied]
  have tag j : ((s.setSlot i r).slot j).tag = (s.slot j).tag := by
    rw [slot_setSlot_eq]; split <;> simp_all
  have admission j : ((s.setSlot i r).slot j).admission = (s.slot j).admission := by
    rw [slot_setSlot_eq]; split <;> simp_all
  have segment j : ((s.setSlot i r).slot j).snapshot.segment = (s.slot j).snapshot.segment := by
    rw [slot_setSlot_eq]; split <;> simp_all
  constructor
  · intro j
    rw [slot_setSlot_eq]
    split
    · exact hr
    · exact h.slots j
  · simpa [Slot.occupied, state, admission] using h.numbered
  · simpa [Slot.occupied, state, admission] using h.distinct
  · simpa [Slot.waiting, state, segment] using h.listed
  · simpa [admission] using h.aged
  · simpa [state, segment] using h.running
  · simpa [state, segment] using h.active
  · simpa using h.down
  · simpa [state, owner] using h.queued
  · simpa [State.occupied, Slot.occupied, state, owner] using h.window
  · intro j k hj hk
    rw [owner, owner, tag, tag]
    exact h.tags j k (live j hj) (live k hk)

/-- The pool asks of a port only its queue. -/
theorem State.PoolFits.setPort {p : PortId} {v : Port} (h : s.PoolFits) (hq : v.queue = (s.port p).queue) :
    (s.setPort p v).PoolFits where
  slots := h.slots
  numbered := h.numbered
  distinct := h.distinct
  listed k i := by simpa using h.listed k i
  aged k := by simpa using h.aged k
  running k a := by simpa using h.running k a
  active i hi := by simpa using h.active i hi
  down k := by simpa using h.down k
  queued q i := by
    rw [port_setPort_eq]
    split
    · next e => rw [hq, e]; exact h.queued p i
    · exact h.queued q i
  window := h.window
  tags := h.tags

/-! ## Timers -/

/-- The timers of a segment fit, as one evaluable conjunction. -/
def Seg.timersFitB (v : Seg) : Bool :=
  decide (v.monitor = .free → v.scl = true ∧ v.sda = true) &&
    decide (v.busFreeTimer.isSome = true ↔ v.monitor = .settling ∧ v.scl = true ∧ v.sda = true) &&
    decide (v.quietTimer.isSome = true ↔ v.engine = .check false ∧ v.scl = true ∧ v.sda = true) &&
    decide (v.dataHeldTimer.isSome = true ↔ v.engine = .check false ∧ v.scl = true ∧ v.sda = false) &&
    decide (v.clockHeldTimer.isSome = true ↔ v.engine = .check false ∧ v.scl = false) &&
    decide (v.busyLongTimer.isSome = true → v.monitor = .busy ∧ v.engine.isRun = false ∧ v.inForce.busyLongLimit ≠ 0)

theorem Seg.timersFit_of {v : Seg} (h : v.timersFitB = true) : v.TimersFit := by
  simp only [Seg.timersFitB, Bool.and_eq_true, decide_eq_true_eq] at h
  obtain ⟨⟨⟨⟨⟨h1, h2⟩, h3⟩, h4⟩, h5⟩, h6⟩ := h
  exact ⟨h1, h2, h3, h4, h5, h6⟩

theorem timersFit_of (hr : s.resetn = true) (a : s.segA.timersFitB = true) (b : s.segB.timersFitB = true) :
    s.TimersFit := by
  rw [State.TimersFit, hr]
  exact forall_seg (Seg.timersFit_of a) (Seg.timersFit_of b)

/-! ## Ports and health -/

/-- A port with an empty store, an empty buffer, no pending switch and no entry in its queue fits when its line does. -/
theorem Port.storeFits_of_empty {v : Port} (hs : v.store = Vector.replicate 6 none)
    (hq : ∀ e, v.queue.count (.entry e) = 0) (ht : v.tx = .sending → v.queue ≠ [] ∧ ∃ i, v.queue.head? = some (.result i))
    (hw : v.pendingSwitch = none) : v.StoreFits where
  counted e := by simp [hs, hq]
  sending h := (ht h).1
  head e := by
    simp only [hs, Fin.getElem_fin, Vector.getElem_replicate, Option.map_none, reduceCtorEq, false_iff, not_and]
    intro h
    obtain ⟨i, hi⟩ := (ht h).2
    simp [hi]
  reserved e x hx := by simp [hs] at hx
  switch w h := by simp [hw] at h

/-- A port that is quiet on its line: nothing assembled, nothing timed, its transmitter not held. -/
theorem Port.lineFits_of_quiet {v : Port} (ha : v.assembly = ⟨.idle, []⟩) (hg : v.gapTimer = none)
    (hs : v.spaceTimer = none) (hr : v.receiver = .ready ∨ v.receiver = .waitMark) (ht : v.tx ≠ .held)
    (hv : v.Served) : v.LineFits where
  buffer _ := by rw [ha]
  lead h := by simp [ha] at h
  length n h := by simp [ha] at h
  gap h := by simp [hg] at h
  space h := by simp [hs] at h
  watch h := by rcases hr with e | e <;> simp [e] at h
  hold h := by rcases hr with e | e <;> simp [e] at h
  held h := absurd h ht
  served := hv

/-- A segment's health record fits, as one evaluable conjunction. -/
def Seg.healthFitsB (v : Seg) : Bool :=
  decide (v.pulseCount ≤ Config.pulseLimit) && decide (v.engine = .recover false → v.pulseCount < Config.pulseLimit) &&
    decide (v.readyOwed = true → v.engine ≠ .idle ∧ v.engine.isRun = false) && decide (v.recovery = none)

theorem Seg.healthFits_of {v : Seg} (h : v.healthFitsB = true) : v.HealthFits := by
  simp only [Seg.healthFitsB, Bool.and_eq_true, decide_eq_true_eq] at h
  obtain ⟨⟨⟨h1, h2⟩, h3⟩, h4⟩ := h
  exact ⟨h1, h2, h3, by simp [h4]⟩

/-- With no recovery outstanding and every store empty, the stores fit when the lines and the health records do. -/
theorem storesFit_of (lines : ∀ p, (s.port p).LineFits) (stores : ∀ p, (s.port p).StoreFits)
    (empty : ∀ p, (s.port p).store = Vector.replicate 6 none) (a : s.segA.healthFitsB = true)
    (b : s.segB.healthFitsB = true) (ha : s.segA.recovery = none) (hb : s.segB.recovery = none) : s.StoresFit where
  lines := lines
  stores := stores
  health := forall_seg (Seg.healthFits_of a) (Seg.healthFits_of b)
  asked p e x g hx := by simp [empty p] at hx
  kept g r h := by
    cases g
    · simp [State.seg, ha] at h
    · simp [State.seg, hb] at h
  once p e f x y hx := by simp [empty p] at hx

end Sys2Proof.Machine
end

