-- ==== Sys2Proof/Laws/Outgoing.lean ====
section
/-! SUPPORT. What the operations of the outgoing side do, told with the port terms of Safety.lean: each is cited in place
of its definition. -/
namespace Sys2Proof.Machine

variable {s : State} {p q : PortId}

/-! ## Serving an idle transmitter -/

theorem give_of_not_idle (h : (s.port p).tx ≠ .idle) : s.give p = s := by
  unfold State.give
  split
  · next e _ => exact absurd e h
  · rfl

theorem give_of_empty (h : (s.port p).queue = []) : s.give p = s := by
  unfold State.give
  split
  · next e => rw [h] at e; cases e
  · rfl

theorem give_idle {item : Item} {rest : List Item} (ht : (s.port p).tx = .idle) (hq : (s.port p).queue = item :: rest) :
    s.give p = s.setPort p { (s.port p).markSending item with tx := .sending, txFrame := s.itemFrame p item } := by
  unfold State.give
  rw [ht, hq]

/-- An IDLE transmitter never stands before a queue that is not empty, once it has been served. -/
theorem served_give : ((s.give p).port p).Served := by
  intro h
  by_cases ht : (s.port p).tx = .idle
  · cases hq : (s.port p).queue with
    | nil => rwa [give_of_empty hq]
    | cons item rest => simp [give_idle ht hq] at h
  · rw [give_of_not_idle ht] at h
    exact absurd h ht

theorem Port.served_sends (v : Port) (e : StoreIx) (x : StoreEntry) : (v.sends e x).Served := by
  unfold Port.sends
  split
  · intro h; cases h
  · next h => intro h'; exact absurd h' h

theorem Port.served_queued (v : Port) (i : SlotId) (f : List Byte) : (v.queued i f).Served := by
  unfold Port.queued
  split
  · intro h; cases h
  · next h => intro h'; exact absurd h' h

theorem Port.served_noticed {v : Port} (h : v.Served) (kind : NoticeKind) (arg : Byte) : (v.noticed kind arg).Served := by
  unfold Port.noticed
  split
  · exact Port.served_sends _ _ _
  · split
    · exact Port.served_sends _ _ _
    · exact h

theorem Port.served_noticedIf {v : Port} (h : v.Served) (kind : NoticeKind) (arg : Byte) :
    (v.noticedIf kind arg).Served := by
  unfold Port.noticedIf
  split
  · exact Port.served_noticed h kind arg
  · exact h

/-! ## Making an item ready -/

/-- A short message composed on a served port is sent as `Port.sends` tells (R159, R160, R162). -/
theorem compose_eq_sends {e : StoreIx} {x : StoreEntry} (h : (s.port p).Served) : s.compose p e x = s.sends p e x := by
  unfold State.compose State.enqueue State.sends Port.sends State.modPort
  by_cases ht : (s.port p).tx = .idle
  · have hq := h ht
    rw [give_idle (item := .entry e) (rest := [])]
    · simp [ht, hq, Port.setEntry, Port.markSending, State.itemFrame]
    · simp [Port.setEntry, ht]
    · simp [Port.setEntry, hq]
  · rw [give_of_not_idle]
    · simp [ht, Port.setEntry]
    · simpa [Port.setEntry] using ht

/-- A request answered whose owner's port is served (R21, R31, R36, R159). -/
theorem answer_eq {i : SlotId} {res : Result} (h : (s.port (s.slot i).owner).Served) :
    s.answer i res = (s.setSlot i ((s.slot i).answered res)).setPort (s.slot i).owner
      ((s.port (s.slot i).owner).queued i ((s.slot i).answered res).resultFrame) := by
  unfold State.answer State.enqueue State.modPort State.modSlot Port.queued
  by_cases ht : (s.port (s.slot i).owner).tx = .idle
  · have hq := h ht
    rw [give_idle (item := .result i) (rest := [])]
    · simp [ht, hq, Port.markSending, State.itemFrame, Slot.answered]
    · simp [ht]
    · simp [hq]
  · rw [give_of_not_idle]
    · simp [ht, Slot.answered]
    · simpa using ht

/-- A notice created for a served port (R165). -/
theorem notice_eq {kind : NoticeKind} {arg : Byte} (h : (s.port p).Served) :
    s.notice p kind arg = s.setPort p ((s.port p).noticed kind arg) := by
  have hd : ∀ e : StoreIx, (s.port p).tx = .idle → ((s.port p).dropNotice e).queue = [] := by
    intro e ht; simp [Port.dropNotice, h ht]
  unfold State.notice Port.noticed Port.room Port.freeEntry Port.oldestNotice Port.readyNotice
  simp only [State.modPort, port_setPort]
  split
  · next e v hv =>
    split at hv
    · next e' he =>
      cases hv
      rw [compose_eq_sends (by intro ht; simpa using h (by simpa using ht)), he]
      simp [State.sends]
    · next he =>
      rw [he]
      split at hv
      · next e' ho =>
        cases hv
        rw [ho, compose_eq_sends]
        · simp [State.sends, Port.dropNotice, Port.setEntry]
        · intro ht
          simpa [Port.dropNotice, Port.setEntry] using hd _ (by simpa [Port.dropNotice, Port.setEntry] using ht)
      · cases hv
  · next hv =>
    split at hv
    · cases hv
    · next he =>
      rw [he]
      split at hv
      · cases hv
      · next ho => rw [ho]; simp

theorem noticeIf_eq {kind : NoticeKind} {arg : Byte} (h : (s.port p).Served) :
    s.noticeIf p kind arg = s.setPort p ((s.port p).noticedIf kind arg) := by
  unfold State.noticeIf Port.noticedIf
  split
  · exact notice_eq h
  · simp

/-- Notices to a list of served ports reach each port of the list once and nothing else (R18, R97, R103, R107). -/
theorem noticeTo_spec {kind : NoticeKind} {arg : Byte} (ps : List PortId) (hn : ps.Nodup) (s : State)
    (h : ∀ p, (s.port p).Served) :
    (∀ q, (s.noticeTo ps kind arg).port q = if q ∈ ps then (s.port q).noticedIf kind arg else s.port q) ∧
      (s.noticeTo ps kind arg) = { s with ports := (s.noticeTo ps kind arg).ports } := by
  induction ps generalizing s with
  | nil => exact ⟨fun q => by simp [State.noticeTo], rfl⟩
  | cons p ps ih =>
    obtain ⟨hp, hn⟩ := List.nodup_cons.mp hn
    have e : s.noticeTo (p :: ps) kind arg = (s.setPort p ((s.port p).noticedIf kind arg)).noticeTo ps kind arg := by
      rw [State.noticeTo, List.foldl_cons, noticeIf_eq (h p)]
      rfl
    have hs : ∀ q, ((s.setPort p ((s.port p).noticedIf kind arg)).port q).Served := by
      intro q
      rw [port_setPort_eq]
      split
      · exact Port.served_noticedIf (h p) kind arg
      · exact h q
    obtain ⟨ha, hb⟩ := ih hn _ hs
    refine ⟨fun q => ?_, ?_⟩
    · rw [e, ha, port_setPort_eq]
      by_cases hq : q = p
      · simp [hq, hp]
      · simp [hq]
    · rw [e, hb]
      rfl

/-! ## The gate (R163) -/

theorem gate_of_free {kind : ShortKind} {k : StoreIx → State → State} {e : StoreIx} (h : (s.port p).freeEntry = some e) :
    s.gate p kind k = k e (s.setPort p ((s.port p).setEntry e (some (StoreEntry.reserve kind)))) := by
  simp [State.gate, Port.room, h]

theorem gate_of_notice {kind : ShortKind} {k : StoreIx → State → State} {e : StoreIx} (h : (s.port p).freeEntry = none)
    (ho : (s.port p).oldestNotice = some e) :
    s.gate p kind k =
      k e (s.setPort p (((s.port p).dropNotice e).setEntry e (some (StoreEntry.reserve kind)))) := by
  simp [State.gate, Port.room, h, ho]

theorem gate_of_full {kind : ShortKind} {k : StoreIx → State → State} (h : (s.port p).freeEntry = none)
    (ho : (s.port p).oldestNotice = none) : s.gate p kind k = s.setPort p (s.port p).countSilent := by
  simp [State.gate, Port.room, h, ho, State.modPort]

/-- A reply composed at once leaves nothing of its reservation. -/
theorem sends_over_reserved {e : StoreIx} {x : StoreEntry} {kind : ShortKind} :
    (s.setPort p ((s.port p).setEntry e (some (StoreEntry.reserve kind)))).sends p e x = s.sends p e x := by
  unfold State.sends Port.sends Port.setEntry
  simp only [port_setPort, setPort_setPort]
  split <;> simp [Vector.set_set]

end Sys2Proof.Machine
end

