-- ==== Sys2Proof/Laws/Segments.lean ====
section
/-! SUPPORT. What the operations of a segment do, told with the segment terms of Safety.lean. -/
namespace Sys2Proof.Machine

variable {s : State} {g : SegId} (v w : Seg)

/-! ## A part that runs -/

theorem running_of {f : State → State} (h : s.resetn = true) : s.running f = .next (f s) := by simp [State.running, h]

theorem running_of_low {f : State → State} (h : s.resetn = false) : s.running f = .next s := by simp [State.running, h]

/-! ## What the monitor sees -/

theorem seeLow_eq (scl sda : Bool) : v.seeLow scl sda = v.lowSeen scl sda := by
  cases h : v.monitor <;> simp [Seg.seeLow, Seg.see, Seg.monitorLow, Seg.lowSeen, h]

theorem start_eq : v.monitorStart.see true false = v.startSeen := by
  cases h : v.monitor <;> simp [Seg.monitorStart, Seg.see, Seg.startSeen, h]

theorem ownStop_eq : v.ownStop = v.stopSeen := by
  cases h : v.monitor <;> simp [Seg.ownStop, Seg.see, Seg.monitorLow, Seg.monitorStop, Seg.stopSeen, h]

theorem stop_eq (h : v.monitor ≠ .free) : (v.see true true).monitorStop = v.stopSeen := by
  cases hm : v.monitor
  · simp [Seg.see, Seg.monitorStop, Seg.stopSeen, hm]
  · simp [Seg.see, Seg.monitorStop, Seg.stopSeen, hm]
  · exact absurd hm h

/-! ## The timers that levels and states drive -/

/-- The timers of a changed segment are all that the change of levels and states adds to it (R96, R101). -/
theorem retime_agrees : (v.retime w).AgreesButTimers w := rfl

theorem AgreesButTimers.refl : v.AgreesButTimers v := rfl

theorem AgreesButTimers.trans {u : Seg} (h : u.AgreesButTimers v) (h' : v.AgreesButTimers w) : u.AgreesButTimers w := by
  unfold Seg.AgreesButTimers at *
  rw [h, h']

/-- The entries into CHECK start the check timers; in everything else the segment is as `Seg.checking` tells (R100). -/
theorem enterCheck_agrees : v.enterCheck.AgreesButTimers v.checking := rfl

/-- The change of a segment is a segment replaced, its timers following. -/
theorem modSeg_eq {f : Seg → Seg} : s.modSeg g f = s.setSeg g ((s.seg g).retime (f (s.seg g))) := rfl

@[simp] theorem seg_modSeg {f : Seg → Seg} : (s.modSeg g f).seg g = (s.seg g).retime (f (s.seg g)) := by
  simp [State.modSeg]

theorem seg_modSeg_ne {f : Seg → Seg} {h : SegId} (hn : h ≠ g) : (s.modSeg g f).seg h = s.seg h := by
  simp [State.modSeg, seg_setSeg_ne _ _ hn]

@[simp] theorem retime_engine : (v.retime w).engine = w.engine := rfl
@[simp] theorem retime_list : (v.retime w).list = w.list := rfl
@[simp] theorem retime_monitor : (v.retime w).monitor = w.monitor := rfl
@[simp] theorem retime_inForce : (v.retime w).inForce = w.inForce := rfl
@[simp] theorem retime_setup : (v.retime w).setup = w.setup := rfl
@[simp] theorem retime_counters : (v.retime w).counters = w.counters := rfl
@[simp] theorem retime_recovery : (v.retime w).recovery = w.recovery := rfl
@[simp] theorem retime_scl : (v.retime w).scl = w.scl := rfl
@[simp] theorem retime_sda : (v.retime w).sda = w.sda := rfl
@[simp] theorem retime_busFreeTimer : (v.retime w).busFreeTimer = w.busFreeTimer := rfl
@[simp] theorem retime_stopOwed : (v.retime w).stopOwed = w.stopOwed := rfl
@[simp] theorem retime_readyOwed : (v.retime w).readyOwed = w.readyOwed := rfl
@[simp] theorem retime_pulseCount : (v.retime w).pulseCount = w.pulseCount := rfl
@[simp] theorem retime_held : (v.retime w).held = w.held := rfl

/-- A change that touches no timer of its own leaves the timers following (R96, R101). -/
theorem retime_follows (hq : w.quietTimer = v.quietTimer) (hd : w.dataHeldTimer = v.dataHeldTimer)
    (hc : w.clockHeldTimer = v.clockHeldTimer) (hb : w.busyLongTimer = v.busyLongTimer) :
    v.TimersFollow (v.retime w) := by
  refine ⟨?_, ?_, ?_, ?_⟩
  · simp only [Seg.retime, timerEdge, Seg.quietCond, Seg.observing, hq, Bool.and_eq_true, decide_eq_true_eq, and_assoc]
  · simp only [Seg.retime, timerEdge, Seg.dataHeldCond, Seg.observing, hd, Bool.and_eq_true, decide_eq_true_eq, and_assoc,
      Bool.not_eq_true', Config.dataHeldMs]
  · simp only [Seg.retime, timerEdge, Seg.clockHeldCond, Seg.observing, hc, Bool.and_eq_true, decide_eq_true_eq,
      Bool.not_eq_true']
  · simp only [Seg.retime, timerEdge, Seg.busyLongCond, hb, Bool.and_eq_true, decide_eq_true_eq, and_assoc,
      Bool.not_eq_true']

/-- The same, with what the segment has become. -/
theorem retime_becomes (hq : w.quietTimer = v.quietTimer) (hd : w.dataHeldTimer = v.dataHeldTimer)
    (hc : w.clockHeldTimer = v.clockHeldTimer) (hb : w.busyLongTimer = v.busyLongTimer) : v.Becomes w (v.retime w) :=
  ⟨retime_agrees v w, retime_follows v w hq hd hc hb⟩

/-! ## A running attempt on the wire -/

variable (a : Attempt) (r : Slot)

/-- The clock seen low outside the bits of a byte (R62, R63, R68, R80). -/
theorem clockFalls_eq : a.clockFalls r = a.past r := by
  simp only [Attempt.clockFalls, Attempt.past, Attempt.aborting, Attempt.made, Attempt.pass, Bool.and_eq_true,
    Bool.or_eq_true, decide_eq_true_eq, Option.isSome_iff_ne_none]

theorem clockFalls_following : (a.clockFalls r).following = a.following := by
  simp only [Attempt.clockFalls, Attempt.pass]; split <;> [rfl; (split <;> rfl)]

theorem clockFalls_failure : (a.clockFalls r).failure = a.failure := by
  simp only [Attempt.clockFalls, Attempt.pass]; split <;> [rfl; (split <;> rfl)]

/-- A clock seen low outside the bits of a byte: an abort that follows a clock which has not been seen high goes on following;
else a start that has been made is over, and an abort at its stop (R62, R63, R68, R80). -/
theorem seesLow_eq (fell : Bool) :
    a.seesLow r fell =
      if a.failure.map Failure.kind = some .aborted ∧ a.phase ≠ .stop ∧ fell = false then a else a.past r := by
  simp only [Attempt.seesLow, clockFalls_eq, Attempt.aborting, Bool.and_eq_true, decide_eq_true_eq, and_assoc,
    Bool.not_eq_true']

/-- What an attempt drives whose stop is not to begin in this part: what its phase says (R60, R80). -/
theorem drive_eq (bit : Fin 9) (part : Part) :
    a.drive r bit part =
      if a.failure.map Failure.kind = some .aborted ∧ a.phase ≠ .stop ∧ part ≠ .high then .stop part
      else a.phaseDrive r bit part := by
  simp only [Attempt.drive, Attempt.aborting, Bool.and_eq_true, decide_eq_true_eq, and_assoc]

/-- Where the clock was last seen high, or the stop is being made, an abort only records its failure (R80). -/
theorem abort_of_high (h : (s.seg g).scl = true ∨ a.phase = .stop) :
    s.abort g a = s.modSeg g fun v => { v with engine := .run a } := by
  rcases h with h | h <;> simp [State.abort, h]

/-- Where it was last seen low, the free value says whether the engine follows it or holds it low itself (R80; log entry 37). -/
theorem abort_of_low (h : (s.seg g).scl = false) (hp : a.phase ≠ .stop) :
    s.abort g a = ({ s with freeCount := s.freeCount + 1 } : State).modSeg g fun v =>
      { v with engine := .run (if Config.freeClockReleased s.freeCount then a else a.pass .stop) } := by
  simp [State.abort, h, hp]

/-- What an attempt has read by a loss (R72, R88). -/
theorem readBy_eq (how : LossCause) :
    a.readBy how = { a with readData := a.readData ++ match how with
      | .dataLow bit data => if a.phase = .read ∧ bit.val = 8 then [byteRead data] else []
      | .clockFell => [] } := by
  cases how with
  | dataLow bit data => by_cases h : a.phase = .read ∧ bit.val = 8 <;> simp [Attempt.readBy, Attempt.takeByte, h]
  | clockFell => simp [Attempt.readBy]

/-- What the pool reads of an attempt at its end does not change with its phase (R77). -/
theorem settle_clockFalls (f : Option Failure) : s.settle (a.clockFalls r) f = s.settle a f := by
  simp only [Attempt.clockFalls, Attempt.pass]; split <;> [rfl; (split <;> rfl)]

/-- The byte that the engine sends now, and 0 where there is none (R69, R71). -/
theorem sentByte_eq : a.sentByte r = (r.phaseBytes a.phase)[a.bytePos]?.getD 0 := by simp [Attempt.sentByte]

/-- The bits of a byte read come most significant first (R66). -/
theorem byteRead_bit (levels : Byte) : ∀ k < 8, (byteRead levels).getMsbD k = levels.getLsbD k := fun k _ => by
  simp [byteRead, BitVec.getMsbD_reverse]

/-- A sent 1 was read low in some data bit (R65, R88). -/
theorem contradicted_iff (levels : Byte) : a.contradicted r levels = true ↔
    a.phase.sends = true ∧ ∃ k < 8, (a.sentByte r).getMsbD k = true ∧ levels.getLsbD k = false := by
  have bits : ∀ b c : Byte, b &&& ~~~(byteRead c) ≠ 0 ↔ ∃ k < 8, b.getMsbD k = true ∧ c.getLsbD k = false := by
    intro b c
    have bit : ∀ k < 8, (b &&& ~~~(byteRead c)).getMsbD k = (b.getMsbD k && !c.getLsbD k) := fun k hk => by
      rw [BitVec.getMsbD_and, BitVec.getMsbD_not, byteRead_bit c k hk, decide_eq_true hk, Bool.true_and]
    constructor
    · intro h
      by_contra hn
      refine h (BitVec.eq_of_getMsbD_eq fun k hk => ?_)
      rw [bit k hk]
      cases hb : b.getMsbD k
      · simp
      · cases hc : c.getLsbD k
        · exact absurd ⟨k, hk, hb, hc⟩ hn
        · simp
    · rintro ⟨k, h8, hb, hc⟩ h
      have := bit k h8
      simp [h, hb, hc] at this
  simp only [Attempt.contradicted, Bool.and_eq_true, decide_eq_true_eq, bits]

end Sys2Proof.Machine
end

