-- ==== Sys2Proof/Laws/Messages.lean ====
section
/-! SUPPORT. How a good message reaches its handler: each message command, told at the state its handler finds. -/
namespace Sys2Proof.Machine

variable {s : State} {p : PortId} {kind tag : Byte} {body : List Byte} {e : StoreIx}

theorem goodEnd_eq (v : Port) : v.goodEnd = v.quietened := rfl

/-- A receiver that takes characters is in neither break watch nor break hold (R123, R126). -/
theorem receiver_open_iff (r : Receiver) : r.open = true ↔ r ≠ .breakWatch ∧ r ≠ .breakHold := by cases r <;> decide

/-- The rest of a frame can arrive exactly when the port hears it (log entry 3). -/
theorem canComplete_iff (v : Port) (frame : List Byte) : v.canComplete frame = true ↔ v.Hears frame := by
  simp only [Port.canComplete, Bool.and_eq_true, decide_eq_true_eq, receiver_open_iff, List.isPrefixOf_iff_prefix]
  constructor
  · rintro ⟨⟨⟨⟨h1, h2⟩, h3⟩, ⟨rest, h4⟩⟩, h5⟩
    refine ⟨h1, h2, h3, rest, ?_, h4⟩
    rintro rfl
    rw [← h4, List.append_nil] at h5
    exact lt_irrefl _ h5
  · rintro ⟨h1, h2, h3, rest, h4, h5⟩
    refine ⟨⟨⟨⟨h1, h2⟩, h3⟩, ⟨rest, h5⟩⟩, ?_⟩
    rw [← h5, List.length_append]
    exact Nat.lt_add_of_pos_right (List.length_pos_of_ne_nil h4)

/-- A port with a ready receiver and an idle assembly hears every frame. -/
theorem hears_of_idle {v : Port} {frame : List Byte} (hr : v.receiver = .ready) (ha : v.assembly = ⟨.idle, []⟩)
    (hf : frame ≠ []) : v.Hears frame := by
  refine ⟨by simp [hr], by simp [hr], by simp [ha], frame, hf, by simp [ha]⟩

theorem frameOf_ne_nil : frameOf kind tag body ≠ [] := by simp [frameOf, frameWithCrc]

/-- A good message that arrives is taken at the state in which its frame has been judged (R139, R144). -/
theorem completeMessage_eq (h : s.Arrives p kind tag body) :
    s.completeMessage p kind tag body = (s.setPort p (s.port p).framed).takeMessage p kind tag body := by
  have hc := (canComplete_iff _ _).mpr h.hears
  have hf := h.fits
  unfold State.completeMessage State.completeFrame State.judgeFrame State.modPort
  rw [if_pos ⟨hf, hc⟩]
  simp only [port_setPort, setPort_setPort, if_true]
  rfl

/-- The counting of a good message, before its handler acts (R144). -/
theorem accepted_eq : (s.setPort p (s.port p).framed).modPort p
    (fun v => { v with counters := { v.counters with accepted := bump v.counters.accepted } }) = s.heard p := by
  simp only [State.modPort, port_setPort, setPort_setPort]
  rfl

/-- A TXN that arrives (R144). -/
theorem completeTxn_eq (h : s.Arrives p kindTxn tag body) :
    s.completeMessage p kindTxn tag body = (s.heard p).takeTxn p tag body := by
  rw [completeMessage_eq h, State.takeMessage, accepted_eq]
  simp [kindVersion, kindCode, kindTxn]

/-- A CANCEL that arrives (R144). -/
theorem completeCancel_eq (h : s.Arrives p kindCancel tag body) :
    s.completeMessage p kindCancel tag body = (s.heard p).takeCancel p tag body := by
  rw [completeMessage_eq h, State.takeMessage, accepted_eq]
  simp [kindVersion, kindCode, kindCancel]

/-- A MGMT that arrives (R144). -/
theorem completeMgmt_eq (h : s.Arrives p kindMgmt tag body) :
    s.completeMessage p kindMgmt tag body = (s.heard p).takeMgmt p tag body := by
  rw [completeMessage_eq h, State.takeMessage, accepted_eq]
  simp [kindVersion, kindCode, kindMgmt]

theorem heard_freeEntry (v : Port) : v.heard.freeEntry = v.freeEntry := rfl
theorem heard_oldestNotice (v : Port) : v.heard.oldestNotice = v.oldestNotice := rfl
theorem heard_served {v : Port} (h : v.Served) : v.heard.Served := h

end Sys2Proof.Machine
end

