-- ==== Sys2Proof/Laws/Send.lean ====
section
/-! SUPPORT. What the operations of a sent character do (R117 to R119). -/
namespace Sys2Proof.Machine

/-- A sent character lasts one character time (R117, R118). -/
theorem sentBits_length (f : LineFormat) (b : Byte) (h : f.stopBits = 1 ∨ f.stopBits = 2) :
    (f.sentBits b).length = f.characterBits := by
  rcases h with h | h <;> cases hp : f.parity <;>
    simp [LineFormat.sentBits, LineFormat.dataBits, LineFormat.characterBits, h, hp]

/-- The characters of a frame follow one another with no idle time (R119). -/
theorem sentLevels_append (f : LineFormat) (xs ys : List Byte) :
    f.sentLevels (xs ++ ys) = f.sentLevels xs ++ f.sentLevels ys := List.flatMap_append

theorem sentLevels_length (f : LineFormat) (frame : List Byte) (h : f.stopBits = 1 ∨ f.stopBits = 2) :
    (f.sentLevels frame).length = frame.length * f.characterBits := by
  induction frame with
  | nil => simp [LineFormat.sentLevels]
  | cons b rest ih =>
    rw [show b :: rest = [b] ++ rest from rfl, sentLevels_append, List.length_append, ih]
    simp [LineFormat.sentLevels, sentBits_length f b h, Nat.add_mul, Nat.add_comm]

/-- The level in one bit time of one character of a frame (R118, R119). -/
theorem sentLevels_get (f : LineFormat) (xs ys : List Byte) (b : Byte) (h : f.stopBits = 1 ∨ f.stopBits = 2) (k : Nat)
    (hk : k < f.characterBits) :
    (f.sentLevels (xs ++ b :: ys))[xs.length * f.characterBits + k]? = ((f.sentBits b)[k]?).map f.levelOf := by
  rw [sentLevels_append, List.getElem?_append_right (by rw [sentLevels_length f xs h]; omega), sentLevels_length f xs h,
    Nat.add_sub_cancel_left, show b :: ys = [b] ++ ys from rfl, sentLevels_append,
    List.getElem?_append_left (by rw [sentLevels_length f _ h]; simpa using hk)]
  simp [LineFormat.sentLevels]

end Sys2Proof.Machine
end

