-- ==== Sys2Proof/WellFormed.lean ====
section
/-! DEFINITION. Which commands the wire can spell: a body fits its frame (R134), and a command that names a case of
the rules carries an operand of that case. A command that is not well formed names an event that cannot occur, and it
changes nothing (log entry 2). -/
namespace Sys2Proof

/-- A body fits a frame: at most 200 bytes (R134). -/
def bodyFits (body : List Byte) : Bool := decide (body.length ≤ Config.maxBody)

/-- A management command's body is its operation code and its arguments; together they fit a frame (R134, R154). -/
def argsFit (args : List Byte) : Bool := decide (args.length < Config.maxBody)

/-- The well-formedness of a command. -/
def Instr.wf : Instr → Bool
  | .crcError _ kind tag body crc => bodyFits body && Machine.crcOf (Machine.covered kind tag body) != crc
  | .badverBadkindMessage _ kind _ body => bodyFits body && !Machine.kindAccepted kind
  | .txn _ _ body => bodyFits body
  | .cancel _ _ body => bodyFits body
  | .mgmtBadop _ _ body => bodyFits body && !Machine.mgmtNamed body
  | .mapWrite _ _ args => argsFit args
  | .mapRead _ _ args => argsFit args
  | .mapRetire _ _ args => argsFit args
  | .portSet _ _ args => argsFit args
  | .portRead _ _ args => argsFit args
  | .segSet _ _ args => argsFit args
  | .segHold _ _ args => argsFit args
  | .segRelease _ _ args => argsFit args
  | .segRecover _ _ args => argsFit args
  | .segReset _ _ args => argsFit args
  | .statusRead _ _ args => argsFit args
  | .restart _ _ args => argsFit args
  | .lineLow _ l => !(l.clock && l.data)
  | .deviceReset => true
  | .deviceResetEnd _ _ => true
  | .characterReceived _ _ => true
  | .breakWatchEndsAtMark _ => true
  | .gapTimerExpiry _ => true
  | .breakRecognized _ => true
  | .breakEnd _ => true
  | .messageTransmitted _ => true
  | .choice _ => true
  | .openingStart _ => true
  | .attemptEndsOk _ => true
  | .attemptEndsAddressNack _ => true
  | .attemptEndsDataNack _ => true
  | .attemptEndsArbitrationLost _ => true
  | .stretchTimeout _ => true
  | .attemptEndsAborted _ => true
  | .retryTimerExpiry _ => true
  | .lifetimeExpiry _ => true
  | .monitorStartSeen _ => true
  | .monitorStopSeen _ => true
  | .bothLinesHigh _ => true
  | .busFreeTimerExpiry _ => true
  | .busyLongTimerExpiry _ => true
  | .quietTimerExpiry _ => true
  | .dataHeldTimerExpiry _ => true
  | .clockHeldTimerExpiry _ => true
  | .closingStopComplete _ => true
  | .closingStopFails _ _ => true
  | .releasePulse _ _ => true
  | .recoveryClockHeld _ => true
  | .recoveryStopComplete _ _ => true
  | .startBit _ _ => true
  | .acknowledgeBitRead _ _ _ => true
  | .arbitrationLost _ _ => true
  | .transmitterHeld _ => true

end Sys2Proof
end

