-- ==== Sys2Proof/Tests/Slice0.lean ====
section
/-! SUPPORT. Tests: ill-formed commands that WellFormed refuses, worked examples of the manual, and for each obligation
with hypotheses a state and operands that meet them. -/
namespace Sys2Proof.Tests
set_option Elab.async false
open Sys2Proof Sys2Proof.Machine

/-! ## Small states -/

/-- Whether a command answers a next state of which `f` holds. -/
def gives (c : Instr) (s : State) (f : State → Bool) : Bool :=
  match exec c s with
  | .next t => f t
  | _ => false

/-- The entry of the management example of chapter 8 and of section 11.1: a 7-bit device at 0x48 on Segment A. -/
def entry3 : MapEntry where
  valid := true
  segment := .A
  form := .sevenBit
  address := 0x48
  subWidth := 1
  windowLow := 0
  windowHigh := 0x7F
  maxTransfer := 16
  readPorts := 5
  writePorts := 1
  priority := 2
  retryLimit := 3
  retryInterval := 10
  speed := .fast
  slowDown := 0

/-- Its record, as the example's MAP_WRITE carries it. -/
def record3 : List Byte := [0, 0, 0, 0x48, 1, 0, 0, 0, 0x7F, 16, 5, 1, 2, 3, 10, 1, 0]

/-- An entry for a 10-bit device at 709 on Segment B (the XFER example of chapter 4). -/
def entry20 : MapEntry := { entry3 with segment := .B, form := .tenBit, address := 709, subWidth := 2, windowHigh := 0x3FF }

/-- A port whose line stands at mark, with nothing on it. -/
def quietPort : Port := { Port.reset true with receiver := .ready }

/-- A segment that is IDLE and FREE. -/
def readySeg : Seg := { Seg.resetHeld true true with engine := .idle, monitor := .free }

/-- A part at rest, with entries 3 and 20 written. -/
def calm : State :=
  (({ State.reset with segA := readySeg, segB := readySeg, ports := Vector.replicate 4 quietPort } : State).setMapEntry 3
    entry3).setMapEntry 20 entry20

/-- A request record for entry 3 with the fields given. -/
def request (state : RequestState) (owner : PortId) (tag : Byte) (admission : Nat) : Slot :=
  { Slot.cleared with
    state := state, owner := owner, tag := tag, target := 3, snapshot := entry3.snapshot, operation := .write
    subAddress := some 0x10, writeData := [0x80, 0x0F], admission := admission }

/-- The request that runs on Segment B in `busy`. -/
def running : Slot :=
  { request .active 0 2 2 with
    target := 20, snapshot := entry20.snapshot, operation := .xfer, subAddress := some 0x140
    writeData := [0x11, 0x22, 0x33], readLength := some 4, attempts := 1 }

/-- Its attempt, in WRITE with one byte acknowledged. -/
def writing : Attempt := ⟨2, .write, false, 1, 1, [], none, false, some ⟨24, 16, 25⟩⟩

/-- A segment in which that attempt runs. -/
def runSeg (a : Attempt) : Seg := { Seg.resetHeld false true with engine := .run a, monitor := .busy }

/-- A part at work: on Segment A slot 1 (HP1, DEFERRED) stands ahead of slot 0 (HP0, PENDING, with a lifetime), slot 2 of
HP0 runs on Segment B, and HP2 sends the RESULT of slot 3. -/
def busy : State :=
  let answered : Slot := { request .answer 2 7 3 with result := some ⟨.ok, .none, 2, []⟩, attempts := 1 }
  { ((((calm.setSlot 0 { request .pending 0 1 1 with lifetimeTimer := some 500 }).setSlot 1
      { request .deferred 1 1 0 with retriesUsed := 1, attempts := 1, retryTimer := some 10 }).setSlot 2
      running).setSlot 3 answered).setPort 2
      { quietPort with tx := .sending, txFrame := answered.resultFrame, queue := [.result 3] } with
    segA := { readySeg with list := [1, 0] }
    segB := runSeg writing
    nextAdmission := 4 }

/-- `busy` with another attempt record on Segment B. -/
def run (a : Attempt) : State := busy.setSeg .B (runSeg a)

/-- `busy` with the engine of Segment A in another state, and the segment changed by `f`. -/
def segA (f : Seg → Seg) : State := busy.setSeg .A (f { readySeg with list := [1, 0] })

/-- `busy` with HP3 changed by `f`. -/
def hp3 (f : Port → Port) : State := busy.setPort 3 (f quietPort)

theorem served_busy : ∀ q, (busy.port q).Served := by decide +kernel

theorem pool_busy : busy.PoolFits :=
  poolFits_of (by decide +kernel) (by decide +kernel) (by decide +kernel)
    ⟨by decide +kernel, by decide +kernel, by decide +kernel, by decide +kernel⟩
    ⟨by decide +kernel, by decide +kernel, by decide +kernel, by decide +kernel⟩
    (by decide +kernel) (by decide +kernel) (by decide +kernel) (by decide +kernel)

theorem pool_segA {f : Seg → Seg} (h : (f { readySeg with list := [1, 0] }).list = [1, 0])
    (hr : (f { readySeg with list := [1, 0] }).engine.isRun = false)
    (hd : (f { readySeg with list := [1, 0] }).engine.down = false) : (segA f).PoolFits :=
  pool_busy.setSeg h rfl hr hd

theorem pool_hp3 {f : Port → Port} (h : (f quietPort).queue = []) : (hp3 f).PoolFits := pool_busy.setPort h

/-- A host message arrives at any port of a part of quiet ports. -/
theorem arrives {s : State} {p : PortId} {kind tag : Byte} {body : List Byte} (hr : s.resetn = true)
    (hv : (s.port p).receiver = .ready ∧ (s.port p).assembly = ⟨.idle, []⟩ ∧ (s.port p).Served)
    (h : body.length ≤ 200) : s.Arrives p kind tag body :=
  ⟨hr, h, hears_of_idle hv.1 hv.2.1 frameOf_ne_nil, hv.2.2⟩

/-- A MGMT of the manager HP0 arrives in `busy`. -/
theorem manages {tag : Byte} {body : List Byte} (h : body.length ≤ 200) : busy.Manages 0 tag body 0 :=
  ⟨arrives rfl (by decide +kernel) h, by decide +kernel, by decide +kernel⟩

/-! ## Commands that are not well formed -/

theorem test_wf_crc_error_that_matches :
    (Instr.crcError 0 kindTxn 1 [] (crcOf (covered kindTxn 1 []))).wf = false := by decide +kernel
theorem test_wf_badver_of_an_accepted_kind : (Instr.badverBadkindMessage 0 0x12 0 []).wf = false := by decide
theorem test_wf_body_too_long : (Instr.txn 0 0 (List.replicate 201 0)).wf = false := by decide +kernel
theorem test_wf_arguments_too_long : (Instr.mapWrite 0 0 (List.replicate 200 0)).wf = false := by decide +kernel
theorem test_wf_badop_of_a_named_operation : (Instr.mgmtBadop 0 0 [0x3F]).wf = false := by decide
theorem test_wf_line_low_with_both_high : (Instr.lineLow .A ⟨true, true⟩).wf = false := by decide
theorem test_wf_accepts : (Instr.mapRead 0 0 [3]).wf = true ∧ (Instr.badverBadkindMessage 0 0x21 0 []).wf = true := by
  decide

/-! ## Worked examples and numbers of the manual -/

/-- R118: 0xD3 in the reset format, the least significant bit first; and 0x01 with MSB first, odd parity, two stop bits and
inverted polarity, as line levels. -/
theorem test_sent_characters :
    LineFormat.reset.sentBits 0xD3 = [false, true, true, false, false, true, false, true, true, true] ∧
      { LineFormat.reset with parity := .odd, stopBits := 2, inverted := true, msbFirst := true }.sentLevels [0x01] =
        [true, true, true, true, true, true, true, true, false, true, false, false] := by decide +kernel

/-- R119: HP2 sends the lead byte and then the kind byte 0x18 with no idle time between; HP0 keeps mark. -/
theorem test_transmit_line : (List.range 20).map (busy.htx 2) =
    LineFormat.reset.sentBits 0xD3 ++ LineFormat.reset.sentBits 0x18 ∧ busy.htx 0 7 = true := by decide +kernel

/-- R135: the nine bytes 0x31 to 0x39 give 0x29B1. -/
theorem test_crc_of_the_nine_digits :
    crcOf [0x31, 0x32, 0x33, 0x34, 0x35, 0x36, 0x37, 0x38, 0x39] = 0x29B1#16 := by decide +kernel

/-- R69: 0x50 gives 0xA0 and 0xA1; 709 gives 0xF4 0xC5, and 0xF5. -/
theorem test_address_bytes :
    addressBytes .sevenBit 0x50 false = [0xA0] ∧ addressBytes .sevenBit 0x50 true = [0xA1] ∧
      addressBytes .tenBit 709 false = [0xF4, 0xC5] ∧ addressBytes .tenBit 709 true = [0xF5] := by decide

/-- R61: 6.1875 µs and 5.0625 µs; 2.0625 µs and 1.375 µs, in sixteenths. -/
theorem test_clock_phases :
    lowPhase .standard 1 = 99 ∧ highPhase .standard 1 = 81 ∧ lowPhase .fast 3 = 33 ∧ highPhase .fast 3 = 22 := by decide

/-- R117, and the example of section 11.7: even parity makes 11 bit times. -/
theorem test_character_times :
    LineFormat.reset.characterBits = 10 ∧ { LineFormat.reset with parity := .even }.characterBits = 11 ∧
      { LineFormat.reset with parity := .odd, stopBits := 2 }.characterBits = 12 := by decide

/-- The management example of chapter 8: the record of entry 3, both ways. -/
theorem test_entry_record : entryOfRecord record3 = some entry3 ∧ entry3.record = record3 := by decide +kernel

/-- R175: a 7-bit address of 0x78, and a retry interval of 0, are out of range. -/
theorem test_entry_record_ranges : entryOfRecord (record3.set 3 0x78) = none ∧ entryOfRecord (record3.set 14 0) = none := by
  decide +kernel

/-- The window example of chapter 1: READ of 8 at 0x18 passes, of 9 fails, XFER of 0 and 1 at 0x0F fails, and READ of 17 at
0x10 fails this check before that of the length. -/
theorem test_window_check :
    let e : MapEntry := { entry3 with windowLow := 0x10, windowHigh := 0x1F }
    inWindow e .read ⟨none, some 0x18, some 8, []⟩ = true ∧ inWindow e .read ⟨none, some 0x18, some 9, []⟩ = false ∧
      inWindow e .write ⟨none, some 0x1E, none, [0, 0, 0, 0]⟩ = false ∧
      inWindow e .xfer ⟨none, some 0x10, some 6, [0, 0]⟩ = true ∧ inWindow e .xfer ⟨none, some 0x0F, some 1, []⟩ = false ∧
      inWindow e .read ⟨none, some 0x10, some 17, []⟩ = false ∧ inWindow e .probe ⟨none, none, none, []⟩ = true := by
  decide

/-- Section 11.1: the TXN of HP2 is admitted PENDING at the head of list A, with no attempt. -/
theorem test_txn_is_admitted : gives (.txn 2 0x31 [3, 1, 0, 0x20, 4]) calm (fun t =>
    (t.slot 0).state = .pending && (t.slot 0).owner = 2 && (t.slot 0).tag = 0x31 && (t.slot 0).attempts = 0 &&
      t.segA.list = [0] && (t.port 2).counters.accepted = 1) = true := by decide +kernel

/-- R149: the same body with a lifetime of 500 ms, whose timer starts. -/
theorem test_txn_with_a_lifetime : gives (.txn 2 0x31 [3, 1, 1, 0x01, 0xF4, 0x20, 4]) calm (fun t =>
    (t.slot 0).lifetimeTimer = some 500 && (t.slot 0).readLength = some 4) = true := by decide +kernel

/-- Section 11.3: the CANREPLY stands ahead of the CANCELLED result. -/
theorem test_cancel_of_a_waiting_request : gives (.cancel 0 0x23 [1]) busy (fun t =>
    (t.port 0).queue = [.entry 0, .result 0] && t.segA.list = [1] &&
      (t.slot 0).result = some ⟨.cancelled, .none, 0, []⟩ && (t.slot 0).lifetimeTimer = none) = true := by decide +kernel

/-- The management example: entry 3 is written, and HP1, whose mask selects MAP_CHANGED, gets a notice with argument 3. -/
theorem test_map_write : gives (.mapWrite 0 0x40 (3 :: record3))
    ({ State.reset with ports := Vector.replicate 4 quietPort }.setPort 1 { quietPort with mask := 8 }) (fun t =>
    t.mapEntry 3 = entry3 && (t.port 0).txFrame.take 6 = [0xD3, 0x1B, 0x40, 2, 0x01, 0] &&
      (t.port 1).txFrame.take 6 = [0xD3, 0x1C, 0, 2, 4, 3] && (t.port 1).noticeSeq = 1) = true := by decide +kernel

/-- The management example: MAP_READ reports index, valid and record, a frame of 27 bytes. -/
theorem test_map_read : gives (.mapRead 0 0x41 [3]) calm (fun t =>
    (t.port 0).txFrame.length = 27 && ((t.port 0).txFrame.drop 4).take 21 = [0x02, 0, 3, 1] ++ record3) = true := by
  decide +kernel

/-- R171, R172: the one manager cannot remove its own privilege. -/
theorem test_last_manager : gives (.portSet 0 1 [0, 0, 120, 0, 1, 0, 0, 4, 3, 0, 0]) calm (fun t =>
    t.managers = 1 && ((t.port 0).txFrame.drop 4).take 2 = [0x10, 3]) = true := by decide +kernel

/-- Section 11.7: a new format of the asking port waits for its MREPLY. -/
theorem test_format_of_the_asking_port : gives (.portSet 0 1 [0, 0, 10, 1, 1, 0, 0, 4, 3, 1, 0]) calm (fun t =>
    (t.port 0).format = LineFormat.reset &&
      decide (((t.port 0).pendingSwitch.map PendingSwitch.point) = some (.replySent 0))) = true := by decide +kernel

/-- Section 11.1: the choice, and the opening start that counts an attempt and makes the monitor BUSY. -/
theorem test_choice : gives (.choice .A) busy (fun t =>
    decide (t.segA.engine = .run ⟨0, .start, false, 0, 0, [], none, false, none⟩) && t.segA.list = [1] &&
      (t.slot 0).state = .active) = true := by decide +kernel
theorem test_opening_start : gives (.openingStart .A)
    (segA fun v => { v with list := [1], engine := .run ⟨0, .start, false, 0, 0, [], none, false, none⟩ }) (fun t =>
    t.segA.monitor = .busy && (t.slot 0).attempts = 1 && t.segA.engine.phaseCode = 1 &&
      decide (t.drive .A 0 .high = ⟨false, true⟩)) = true := by decide +kernel

/-- R68: START ends when the clock is driven low, and so does RESTART, after the engine's own repeated start (R63). -/
theorem test_start_ends_when_the_clock_falls : gives (.lineLow .B ⟨false, false⟩)
    (run { writing with phase := .start, bytePos := 0, written := 0 }) (fun t =>
    decide (t.segB.engine = .run { writing with phase := .address, bytePos := 0, written := 0 })) = true := by decide +kernel
theorem test_own_repeated_start : gives (.monitorStartSeen .B)
    (run { writing with phase := .restart, bytePos := 0, written := 3 }) (fun t =>
    decide (t.segB.engine = .run { writing with phase := .restart, restarted := true, bytePos := 0, written := 3 })) =
      true := by decide +kernel

/-- R68: a SEG_RESET in the high phase after the repeated start still meets RESTART, where 5. -/
theorem test_abort_in_restart : gives (.segReset 0 9 [1])
    (busy.setSeg .B { runSeg { writing with phase := .restart, restarted := true } with scl := true, sda := false }) (fun t =>
    decide (t.segB.engine = .run { writing with
      phase := .restart, restarted := true, failure := some ⟨.aborted, .stopOrRestart⟩ })) = true := by decide +kernel

/-- R80: an abort that follows a clock held low keeps its phase while the clock stays low, and goes to STOP when the clock,
once seen high, falls. -/
theorem test_abort_follows_the_clock :
    let a : Attempt := { writing with failure := some ⟨.aborted, .writeData⟩ }
    gives (.lineLow .B ⟨false, false⟩) (run a) (fun t => decide (t.segB.engine = .run a)) = true ∧
      gives (.lineLow .B ⟨false, false⟩) (busy.setSeg .B { runSeg a with scl := true, sda := false }) (fun t =>
        decide (t.segB.engine = .run { a with phase := .stop, bytePos := 0 })) = true := by decide +kernel

/-- R80: meanwhile the clock is released and the bit's data kept, here the first, a 0, and the third, a 1, of 0x22; then the
engine drives the clock low and makes the stop. -/
theorem test_abort_keeps_the_bit :
    let a : Attempt := { writing with failure := some ⟨.aborted, .writeData⟩ }
    a.drive running 0 .high = ⟨false, true⟩ ∧ a.drive running 2 .high = ⟨false, false⟩ ∧
      a.drive running 2 .low = ⟨true, true⟩ := by decide

/-- The XFER example of chapter 4: 0x22 acknowledged counts 2; 0x33 acknowledged leads to RESTART. The levels of 0x22 and
0x33 on the wire, the most significant bit first. -/
theorem test_write_byte_acknowledged : gives (.acknowledgeBitRead .B 0b01000100 false) busy (fun t =>
    decide (t.segB.engine = .run { writing with bytePos := 2, written := 2 })) = true := by decide +kernel
theorem test_last_write_byte_leads_to_restart :
    gives (.acknowledgeBitRead .B 0b11001100 false) (run { writing with bytePos := 2, written := 2 }) (fun t =>
      decide (t.segB.engine = .run { writing with phase := .restart, bytePos := 0, written := 3 })) = true := by
  decide +kernel

/-- R66: the bits of a byte are read most significant first. -/
theorem test_bits_read : byteRead 0b00000001 = 0x80 ∧ byteRead 0b11001100 = 0x33 := by decide

/-- R65: of 0x22 the third and the seventh bit are released, the others driven low. -/
theorem test_bits_driven : ((List.finRange 9).map fun bit => (writing.drive running bit .low).data) =
    [true, true, false, true, true, true, false, true, false] := by decide

/-- R88: the engine compares the third bit of 0x22, and not the second. -/
theorem test_loss_on_a_compared_bit : gives (.arbitrationLost .B (.dataLow 2 0)) busy (fun t =>
    decide (t.segB.engine = .run { writing with failure := some ⟨.arbitrationLost, .writeData⟩, following := true })) =
      true := by decide +kernel
theorem test_no_loss_on_a_driven_bit : gives (.arbitrationLost .B (.dataLow 1 0)) busy (fun t =>
    decide (t = busy)) = true := by decide +kernel

/-- R72, R88: the no-acknowledge of the last byte of READ is lost after the eighth bit, and the byte has been read. -/
theorem test_loss_on_the_no_acknowledge : gives (.arbitrationLost .B (.dataLow 8 0b11001100))
    (run { writing with phase := .read, bytePos := 3, written := 3, readData := [1, 2, 3] }) (fun t =>
    (match t.segB.engine with | .run a => a.readData = [1, 2, 3, 0x33] && a.following | _ => false)) = true := by
  decide +kernel

/-- The example of a data not acknowledged: NACKDATA, where 3, written count k − 1. -/
theorem test_data_nack : gives (.attemptEndsDataNack .B)
    (run { writing with phase := .stop, failure := some ⟨.dataNack, .writeData⟩ }) (fun t =>
    (t.slot 2).result = some ⟨.nackdata, .writeData, 1, []⟩ && t.segB.engine = .idle &&
      t.segB.counters.dataNacks = 1 && t.segB.monitor = .settling) = true := by decide +kernel

/-- Section 11.4: a loss in the write data returns the request PENDING with one loss. -/
theorem test_loss_returns_the_request : gives (.attemptEndsArbitrationLost .B)
    (run { writing with failure := some ⟨.arbitrationLost, .writeData⟩, following := true }) (fun t =>
    (t.slot 2).state = .pending && (t.slot 2).losses = 1 && t.segB.list = [2] && t.segB.engine = .idle) = true := by
  decide +kernel

/-- The example of chapter 6: a stretch timeout ends the attempt STRETCH and leaves a stop owed in CHECK. -/
theorem test_stretch_timeout : gives (.stretchTimeout .B) busy (fun t =>
    (t.slot 2).result = some ⟨.stretch, .writeData, 1, []⟩ && t.segB.engine = .check false && t.segB.stopOwed &&
      t.segB.clockHeldTimer = some 25 && t.segB.counters.stretchTimeouts = 1) = true := by decide +kernel

/-- The same example: the clock-held timer's expiry enters FAULT and answers the list SEGFAULT. -/
theorem test_fault : gives (.clockHeldTimerExpiry .A)
    (segA fun v => { v with engine := .check false, clockHeldTimer := some 25 }) (fun t =>
    t.segA.engine = .fault && t.segA.readyOwed && t.segA.list = [] &&
      (t.slot 1).result = some ⟨.segfault, .none, 0, []⟩ && (t.port 0).queue = [.result 0]) = true := by decide +kernel

/-- Section 11.6: the data-held timer leads to RECOVER, and a pulse that reads high to the recovery stop. -/
theorem test_data_held : gives (.dataHeldTimerExpiry .A)
    (segA fun v => { v with engine := .check false, sda := false, dataHeldTimer := some 1, pulseCount := 4 }) (fun t =>
    t.segA.engine = .recover false && t.segA.pulseCount = 0 && t.segA.readyOwed && t.segA.counters.recoveries = 1) =
      true := by decide +kernel
theorem test_pulse_reads_high : gives (.releasePulse .A true)
    (segA fun v => { v with engine := .recover false, pulseCount := 2 }) (fun t =>
    t.segA.engine = .recover true && t.segA.pulseCount = 3) = true := by decide +kernel

/-- Section 11.5: a break frees HP0's waiting request and makes its running one an orphan. -/
theorem test_break : gives (.breakRecognized 0)
    (busy.setPort 0 { quietPort with receiver := .breakWatch, spaceTimer := some 3600 }) (fun t =>
    (t.slot 0).state = .free && (t.slot 2).orphan && (t.slot 2).state = .active && t.segA.list = [1] &&
      (t.port 0).receiver = .breakHold && (t.port 0).tx = .held) = true := by decide +kernel

/-- The noisy line of chapter 8: 0x41 in idle is noise; a length of 250 abandons the frame. -/
theorem test_noise_byte : gives (.characterReceived 2 (LineFormat.reset.character 0x41)) calm (fun t =>
    (t.port 2).counters.noiseBytes = 1 && (t.port 2).assembly = ⟨.idle, []⟩) = true := by decide +kernel
theorem test_length_above_200 : gives (.characterReceived 2 (LineFormat.reset.character 0xFA))
    (calm.setPort 2 { quietPort with assembly := ⟨.receiving, [0xD3, 0x11, 0x07]⟩ }) (fun t =>
    (t.port 2).counters.abandoned = 1 && (t.port 2).assembly = ⟨.hunting, []⟩) = true := by decide +kernel

/-- Section 11.1: the completion of the RESULT frees its slot and leaves the transmitter IDLE. -/
theorem test_result_sent : gives (.messageTransmitted 2) busy (fun t =>
    t.slot 3 = Slot.cleared && (t.port 2).tx = .idle && (t.port 2).queue = []) = true := by decide +kernel

/-- The table gives no row any bits (log entry 24). -/
theorem test_no_word_spells_a_command : decodeTableWord 8 0x11 = none := rfl

/-! ## What meets the hypotheses of each obligation

One theorem for each obligation with hypotheses, a clause for each of its clauses: a state and operands that meet them all
together, at an edge of their range where they have one. -/

/-- Management arrives at HP0 of any state whose HP0 is quiet. -/
abbrev Quiet0 (s : State) : Prop := s.resetn = true ∧ s.port 0 = quietPort ∧ s.managers = 1

theorem manages0 {s : State} {tag : Byte} {body : List Byte} (h : Quiet0 s) (hb : body.length ≤ 200) :
    s.Manages 0 tag body 0 := by
  obtain ⟨hr, h0, hm⟩ := h
  refine ⟨arrives hr ?_ hb, ?_, ?_⟩
  · rw [h0]; decide +kernel
  · rw [h0]; decide +kernel
  · rw [hm]; decide

theorem arrives0 {s : State} {kind tag : Byte} {body : List Byte} (h : Quiet0 s) (hb : body.length ≤ 200) :
    s.Arrives 0 kind tag body := by
  obtain ⟨hr, h0, -⟩ := h
  exact arrives hr (by rw [h0]; decide +kernel) hb

/-- `calm` with HP2 changed by `f`. -/
def hp2 (f : Port → Port) : State := calm.setPort 2 (f quietPort)

theorem witness_StepRunsTheFrontCommand : State.reset.pending = [] := rfl

theorem witness_DeviceResetEndStartsThePart : State.reset.resetn = true ∧ { busy with resetn := false }.resetn = false :=
  ⟨rfl, rfl⟩

theorem witness_ResetHoldsThePart : ∃ (c : Instr) (s : State), s.resetn = false ∧ c ≠ .deviceReset ∧
    ∀ a b, c ≠ .deviceResetEnd a b :=
  ⟨.startBit 0 true, { busy with resetn := false }, rfl, by decide, fun _ _ => by simp⟩

theorem witness_StartBitStandsOrIsDiscarded :
    (busy.resetn = true ∧ (busy.port 0).receiver = .ready) ∧
      (State.reset.resetn = true ∧ (State.reset.port 3).receiver = .waitMark) := by decide +kernel

/-- All three rows of R121's table, with even parity and two stop bits; a port that sends, two that do not, a character
finished after a break, and a part in reset. -/
theorem witness_CharacterJudgementFollowsTheTable :
    ((busy.resetn = true ∧ (busy.port 2).tx = .sending ∧ (busy.port 2).txFormat.stopBits = 1 ∧
      (∃ after, (busy.port 2).txFrame = [0xD3] ++ 0x18 :: after) ∧ (busy.port 0).tx = .idle) ∧
      { busy with resetn := false }.resetn = false ∧ ((hp3 fun v => { v with tx := .held }).port 3).tx = .held ∧
      ((hp3 fun v => { v with tx := .finishing, txFrame := [0xD3] }).port 3).txFrame = [] ++ 0xD3 :: []) ∧
    let f : LineFormat := { LineFormat.reset with parity := .even, stopBits := 2 }
    f.judge ⟨0, false, false, true⟩ = .candidate ∧ f.judge ⟨0x01, true, true, true⟩ = .good 0x01 ∧
      f.judge ⟨0x01, false, true, true⟩ = .error ∧ f.judge ⟨0, false, true, false⟩ = .error :=
  ⟨⟨⟨rfl, by decide +kernel, by decide +kernel, ⟨(busy.port 2).txFrame.drop 2, by decide +kernel⟩, by decide +kernel⟩, rfl,
    by decide +kernel, by decide +kernel⟩, by decide⟩

theorem witness_IdleAssemblyTakesItsEvents :
    (calm.resetn = true ∧ (calm.port 2).receiver = .ready ∧ (calm.port 2).assembly = ⟨.idle, []⟩) ∧
      (calm.port 2).format.judge ⟨0xD3, false, true, false⟩ = .good 0xD3#8 ∧
      (calm.port 2).format.judge ⟨0xD2, false, true, false⟩ = .good 0xD2#8 ∧
      (calm.port 2).format.judge ⟨0xD3, false, false, false⟩ = .error := by decide +kernel

/-- Hunting; a length byte of 201; a length byte of 200, of a longest frame; and the last byte of a frame. -/
theorem witness_ReceivingAppendsUntilTheFrameIsWhole :
    (∀ b, LineFormat.reset.judge (LineFormat.reset.character b) = .good b) ∧
      ((hp2 fun v => { v with assembly := ⟨.hunting, []⟩ }).port 2).assembly.state = .hunting ∧
      (let s := hp2 fun v => { v with assembly := ⟨.receiving, [0xD3, 0x11, 0x07]⟩ };
       (s.resetn = true ∧ (s.port 2).format = LineFormat.reset ∧ (s.port 2).receiver = .ready ∧
          (s.port 2).assembly.state = .receiving ∧ (s.port 2).assembly.buffer.length = 3 ∧ 200 < (201#8).toNat) ∧
        ∃ rest, rest ≠ [] ∧ (s.port 2).assembly.buffer ++ 200#8 :: rest =
          frameWithCrc 0x11 0x07 (List.replicate 200 0) 0) ∧
      ((hp2 fun v => { v with assembly := ⟨.receiving, [0xD3, 0x12, 0x07, 0, 0xAB]⟩ }).port 2).assembly.buffer ++ [0xCD#8] =
        frameWithCrc 0x12 0x07 [] 0xABCD := by
  refine ⟨by decide +kernel, by decide +kernel, ⟨by decide +kernel, List.replicate 200 0 ++ [0, 0],
    by decide +kernel, by decide +kernel⟩,
    by decide +kernel⟩

theorem witness_CharacterErrorsAndBreakWatch :
    (calm.resetn = true ∧ (calm.port 2).receiver = .ready ∧
      (calm.port 2).format.judge ⟨0x80, false, false, false⟩ = .error ∧
      (calm.port 2).format.judge ⟨0, false, false, false⟩ = .candidate) ∧
    (let s := hp2 fun v => { v with format := { v.format with stopBits := 2 } };
      (s.port 2).format.judge ⟨0, false, false, true⟩ = .candidate) ∧
    ((hp2 fun v => { v with receiver := .inCharacter, spaceTimer := some 3600 }).port 2).receiver = .inCharacter ∧
    ((hp2 fun v => { v with receiver := .breakWatch, spaceTimer := some 3600 }).port 2).receiver = .breakWatch ∧
    ((hp2 fun v => { v with receiver := .waitMark }).port 2).receiver = .waitMark := by decide +kernel

theorem witness_GapExpiryEndsFramesAndHunting :
    ∀ a ∈ [⟨.idle, []⟩, ⟨.receiving, [0xD3]⟩, ⟨.hunting, []⟩],
      let s := hp2 fun v => { v with assembly := a, gapTimer := some 4800 };
      s.resetn = true ∧ (s.port 2).gapTimer.isSome = true ∧ (s.port 2).assembly = a := by decide +kernel

/-- A break watch, with and without a switch of the polarity; a timer left to a receiver that waits for mark; and a character
not yet over. -/
theorem witness_BreakRestartsItsPort :
    (∀ r ∈ [Receiver.breakWatch, .waitMark],
      let s := hp3 fun v => { v with receiver := r, spaceTimer := some 3600 };
      s.resetn = true ∧ (s.port 3).spaceTimer.isSome = true ∧ (s.port 3).receiver = r ∧ (s.port 3).pendingSwitch = none ∧
        s.PoolFits) ∧
    (let f : LineFormat := { LineFormat.reset with inverted := true }
      let s := hp3 fun v => { v with receiver := .breakWatch, spaceTimer := some 3600, pendingSwitch := some ⟨f, .messageSent⟩ }
      s.resetn = true ∧ (s.port 3).spaceTimer.isSome = true ∧ (s.port 3).receiver = .breakWatch ∧ s.PoolFits ∧
        (s.port 3).pendingSwitch = some ⟨f, .messageSent⟩ ∧ f.inverted ≠ (s.port 3).format.inverted) ∧
    (busy.port 3).spaceTimer = none ∧
    ((hp3 fun v => { v with receiver := .inCharacter, spaceTimer := some 3600 }).port 3).receiver = .inCharacter := by
  refine ⟨fun r _ => ⟨rfl, ?_, ?_, ?_, pool_hp3 rfl⟩, ⟨rfl, by decide +kernel, by decide +kernel, pool_hp3 rfl,
    by decide +kernel, by decide +kernel⟩, by decide +kernel, by decide +kernel⟩ <;>
    rw [show (hp3 fun v => { v with receiver := r, spaceTimer := some 3600 }).port 3 =
      { quietPort with receiver := r, spaceTimer := some 3600 } from port_setPort _ _ _] <;> rfl

theorem witness_BreakEndAnnouncesTheRestart :
    ∀ tx ∈ [Transmitter.held, .finishing],
      let s := hp3 fun v => { v with receiver := .breakHold, tx := tx }
      s.resetn = true ∧ (s.port 3).receiver = .breakHold ∧ (s.port 3).tx = tx := by decide +kernel

/-- A frame with a CRC of 0 that does not match; a kind byte of version 2, and one of kind 0. -/
theorem witness_FramesNotHandedOn :
    (crcOf (covered 0x11 0 []) ≠ 0 ∧
      (busy.port 0).Hears (frameWithCrc 0x11 0 [] 0)) ∧
    busy.Arrives 0 0x21 0 [] ∧ busy.Arrives 0 0x10 0 [] ∧ (busy.port 0).freeEntry = some 0 ∧
      (0x21#8).toNat / 16 ≠ 1 ∧ (0x10#8).toNat / 16 = 1 ∧ (0x10#8).toNat % 16 = 0 :=
  ⟨⟨by decide +kernel, hears_of_idle (by decide +kernel) (by decide +kernel) (by simp [frameWithCrc])⟩,
    arrives0 (by decide +kernel) (by decide), arrives0 (by decide +kernel) (by decide), by decide +kernel, by decide,
    by decide, by decide⟩

/-- The whole of a frame, and the rest of one whose first byte assembly holds. -/
theorem witness_FrameSentByteByByteIsItsCommand :
    ((calm.port 2).LineFits ∧ (calm.port 2).assembly.buffer ++ frameOf 0x12 1 [2] = frameOf 0x12 1 [2] ∧
      frameOf 0x12 1 [2] ≠ []) ∧
    let s := hp2 fun v => { v with assembly := ⟨.receiving, [0xD3]⟩ }
    s.resetn = true ∧ (s.port 2).receiver = .ready ∧ (s.port 2).LineFits ∧ (s.port 2).assembly.state ≠ .hunting ∧
      (s.port 2).assembly.buffer ++ (frameWithCrc 0x12 1 [] 0).tail = frameWithCrc 0x12 1 [] 0 := by
  refine ⟨⟨Port.lineFits_of_quiet (by decide +kernel) (by decide +kernel) (by decide +kernel) (by decide +kernel)
    (by decide +kernel) (by decide +kernel), by decide +kernel, frameOf_ne_nil⟩, rfl, by decide +kernel, ?_,
    by decide +kernel, by decide +kernel⟩
  rw [show (hp2 fun v => { v with assembly := ⟨.receiving, [0xD3]⟩ }).port 2 =
    { quietPort with assembly := ⟨.receiving, [0xD3]⟩ } from port_setPort _ _ _]
  refine ⟨by simp, by simp [leadByte], by simp, ?_, ?_, ?_, ?_, ?_, ?_⟩ <;> decide +kernel

/-- A READ of `n` bytes at `a`. -/
def readAt (a n : Nat) : TxnFields := ⟨none, some a, some n, []⟩

theorem readAt_agrees {a n : Nat} (ha : a < 256) (hn : 1 ≤ n ∧ n ≤ 255) : (readAt a n).Agrees .read 1 := by
  simp [readAt, TxnFields.Agrees, ha, hn]

theorem readAt_inWindow {a n : Nat} (hn : 1 ≤ n) : (readAt a n).InWindow entry3 ↔ a + n - 1 ≤ 0x7F := by
  simp [readAt, TxnFields.InWindow, entry3, Nat.max_eq_right hn]

/-- A part in which HP0, HP1 and HP3 hold eight slots each. -/
def full : State :=
  { calm with
    slots := Vector.ofFn fun i =>
      request .answer (if i.val < 8 then 0 else if i.val < 16 then 1 else 3) (byte i.val) i.val }

/-- HP2 and entry 3, whose read ports are HP0 and HP2, but for the denied request of HP1. -/
theorem witness_AdmissionChecksStandInOrder :
    ([3, 1].length < 3 ∧ 47 < (48#8).toNat ∧ (calm.mapEntry 47).valid = false) ∧
    ((calm.mapEntry 3 = entry3 ∧ entry3.valid = true ∧ entry3.subWidth ≤ 2) ∧ (0#8).toNat = 0 ∧ 4 < (5#8).toNat ∧
      Operation.read.code = 1) ∧
    ((¬∃ f : TxnFields, f.Agrees .read 1 ∧ ([] : List Byte) = f.layout 1 ∧
        (2 : Byte) = (if f.lifetime.isSome then 1 else 0)) ∧
      (readAt 0x7F 1).Agrees .read 1 ∧ [0x7F, 1] = (readAt 0x7F 1).layout 1) ∧
    (¬(readAt 0x7F 1).Permitted entry3 1 .read ∧ (readAt 0x7F 1).Permitted entry3 2 .read) ∧
    (¬(readAt 0x7F 2).InWindow entry3 ∧ (readAt 0x7F 1).InWindow entry3 ∧ (readAt 0 17).InWindow entry3) ∧
    (¬(readAt 0 17).Short entry3 ∧ (readAt 0x7F 1).Short entry3) ∧
    (∃ j, (busy.slot j).live = true ∧ (busy.slot j).owner = 2 ∧ (busy.slot j).tag = 7) ∧
    ((¬∃ j, (calm.slot j).live = true ∧ (calm.slot j).owner = 2 ∧ (calm.slot j).tag = 7) ∧
      ((calm.setSeg .A { readySeg with engine := .fault }).seg entry3.segment).engine = .fault ∧
      ((calm.setSeg .A { readySeg with engine := .off }).seg entry3.segment).engine = .off ∧
      (calm.seg entry3.segment).engine = .idle) ∧
    (full.occupied 0 = 8 ∧ (¬∃ j, (full.slot j).live = true ∧ (full.slot j).owner = 0 ∧ (full.slot j).tag = 200)) ∧
    (full.occupied 2 = 0 ∧ (∀ i, (full.slot i).state ≠ .free) ∧
      ¬∃ j, (full.slot j).live = true ∧ (full.slot j).owner = 2 ∧ (full.slot j).tag = 200) ∧
    calm.occupied 2 = 0 ∧ (calm.slot 0).state = .free ∧ ∀ j < (0 : SlotId), (calm.slot j).state ≠ .free := by
  refine ⟨by decide +kernel, by decide +kernel, ⟨?_, readAt_agrees (by decide) (by decide), by decide +kernel⟩, ?_, ?_, ?_,
    by decide +kernel, by decide +kernel, by decide +kernel, by decide +kernel, by decide +kernel⟩
  · rintro ⟨f, -, -, h⟩
    split at h <;> simp at h
  · simp only [TxnFields.Permitted]
    decide +kernel
  · refine ⟨?_, ?_, ?_⟩ <;> rw [readAt_inWindow (by decide)] <;> decide
  · simp [TxnFields.Short, readAt, entry3]

theorem witness_AdmittedRequestFillsItsSlot : ∃ a, calm.resetn = true ∧
    (calm.port 2).Hears (frameOf kindTxn 0x31 [3, 1, 0, 0x7F, 1]) ∧ calm.checkTxn 2 0x31 [3, 1, 0, 0x7F, 1] = .ok a :=
  ⟨⟨0, 3, entry3, .read, readAt 0x7F 1⟩, rfl, hears_of_idle (by decide +kernel) (by decide +kernel) frameOf_ne_nil,
    by decide +kernel⟩

theorem witness_RefusedTxnHasOnlyItsRefusal : busy.Arrives 0 kindTxn 1 [3, 1] ∧
    busy.checkTxn 0 1 [3, 1] = .error .badfmt ∧ (busy.port 0).freeEntry = some 0 :=
  ⟨arrives0 (by decide +kernel) (by decide), by decide +kernel, by decide +kernel⟩

/-- A PENDING, a DEFERRED, an ACTIVE and an ANSWER request of `busy`, each cancelled by its owner. -/
theorem witness_CancelAnswersByTheRequestState : busy.PoolFits ∧
    (∀ x ∈ [(0, 0, 1, .pending), (1, 1, 1, .deferred), (2, 0, 2, .active), (3, 2, 7, .answer)],
      busy.Arrives x.2.1 kindCancel 9 [x.2.2.1] ∧ (busy.port x.2.1).freeEntry = some 0 ∧ (busy.slot x.1).live = true ∧
        (busy.slot x.1).owner = x.2.1 ∧ (busy.slot x.1).tag = x.2.2.1 ∧ (busy.slot x.1).state = x.2.2.2) ∧
    (busy.Arrives 0 kindCancel 9 [200] ∧
      ∀ i, (busy.slot i).live = true → (busy.slot i).owner = 0 → (busy.slot i).tag ≠ 200) ∧
    busy.Arrives 0 kindCancel 9 [] ∧ busy.Arrives 0 kindCancel 9 [1, 1] := by
  refine ⟨pool_busy, ?_, ⟨arrives0 (by decide +kernel) (by decide), by decide +kernel⟩,
    arrives0 (by decide +kernel) (by decide), arrives0 (by decide +kernel) (by decide)⟩
  intro x hx
  simp only [List.mem_cons, List.not_mem_nil, or_false] at hx
  rcases hx with rfl | rfl | rfl | rfl <;>
    exact ⟨arrives rfl (by decide +kernel) (by decide), by decide +kernel⟩

/-- HP2 with a full store: replies only, or a ready notice behind its head. -/
def stuffed (notice : Bool) : State :=
  let x : StoreEntry := ⟨.refuse, .ready, 1, [1, 0x11], none, false⟩
  hp2 fun v => { v with
    tx := .sending
    txFrame := x.frame
    queue := [.entry 0, .entry 1, .entry 2, .entry 3, .entry 4, .entry 5]
    store := ((Vector.replicate 6 (some x)).set 0 (some { x with condition := .inTransmission })).set 5
      (some (if notice then ⟨.notice, .ready, 0, [4, 3], none, false⟩ else x)) }

theorem witness_FullStoreDropsANoticeOrDiscards : ∀ b : Bool,
    (stuffed b).Arrives 2 kindTxn 1 [] ∧ (stuffed b).Arrives 2 kindCancel 1 [7] ∧
      ((stuffed b).port 2).freeEntry = none ∧ gatedOf (.cancel 2 1 [7]) = some (2, kindCancel, 1, [7]) ∧
      (∃ reason, (stuffed b).checkTxn 2 1 [] = .error reason) ∧
      ((stuffed b).port 2).oldestNotice = (if b then some 5 else none) := by
  intro b
  have h : (stuffed b).port 2 = _ := port_setPort _ _ _
  have hr : ((stuffed b).port 2).receiver = .ready ∧ ((stuffed b).port 2).assembly = ⟨.idle, []⟩ ∧
      ((stuffed b).port 2).Served := by cases b <;> decide +kernel
  refine ⟨arrives rfl hr (by decide), arrives rfl hr (by decide), ?_, by decide +kernel, ⟨.badfmt, ?_⟩, ?_⟩ <;>
    cases b <;> decide +kernel

/-- HP1 has no privilege in `busy`; HP0 has. -/
theorem witness_ManagementNeedsPrivilegeAndAnOperation :
    (mgmtOf (.mapRead 1 9 [3]) = some (1, 9, [2, 3]) ∧ busy.Arrives 1 kindMgmt 9 [2, 3] ∧
      (busy.port 1).freeEntry = some 0 ∧ hasPort busy.managers 1 = false) ∧
    hasPort busy.managers 0 = true ∧
    (mgmtOf (.mgmtBadop 0 9 []) = some (0, 9, []) ∧ busy.Arrives 0 kindMgmt 9 []) ∧
    mgmtOf (.mgmtBadop 0 9 [0x3E]) = some (0, 9, [0x3E]) ∧ busy.Arrives 0 kindMgmt 9 [0x3E] ∧
      (busy.port 0).freeEntry = some 0 :=
  ⟨⟨by decide +kernel, arrives rfl (by decide +kernel) (by decide), by decide +kernel, by decide +kernel⟩,
    by decide +kernel, ⟨by decide +kernel, arrives0 (by decide +kernel) (by decide)⟩, by decide +kernel,
    arrives0 (by decide +kernel) (by decide), by decide +kernel⟩

theorem quiet0_busy : Quiet0 busy := by decide +kernel

/-- Each first value out of range. -/
theorem witness_BadArgumentsAreAnsweredWithoutEffect :
    (mgmtOf (.restart 0 9 [0]) = some (0, 9, [0x3F, 0]) ∧ 0x3F#8 ∈ mgmtOps ∧ [0#8].length ≠ argumentCount 0x3F) ∧
    (47 < (48#8).toNat ∧ entryOfRecord (record3.set 14 0) = none ∧ entryOfRecord record3 = some entry3) ∧
    (3 < (4#8).toNat ∧ profileOfRecord [0, 0, 0, 0, 1, 0, 0, 4, 3, 0, 0] = none ∧ 1 < (2#8).toNat) ∧
    ((0x04#8) ∉ [0x00#8, 0x01#8, 0x02#8, 0x03#8, 0x10#8, 0x11#8, 0x20#8]) ∧
    ∀ body ∈ [[0x3F, 0], 0x01 :: 48 :: record3, 0x01 :: 3 :: record3.set 14 0, [0x02, 48], [0x03, 48, 0], [0x03, 3, 2],
      [0x10, 4, 0, 120, 0, 1, 0, 0, 4, 3, 1, 0], [0x10, 0, 0, 0, 0, 1, 0, 0, 4, 3, 0, 0], [0x11, 4], [0x20, 2, 1, 5, 25, 0],
      [0x20, 0, 2, 5, 25, 0], [0x20, 0, 1, 0, 25, 0], [0x20, 0, 1, 5, 0, 0], [0x21, 2], [0x22, 2], [0x23, 2], [0x24, 2],
      [0x30, 0, 2], [0x30, 4, 0]], busy.Manages 0 9 body 0 := by
  refine ⟨by decide +kernel, by decide +kernel, by decide +kernel, by decide, fun body h => manages0 quiet0_busy ?_⟩
  revert body
  decide +kernel

theorem witness_MapWriteReplacesTheEntry : busy.Manages 0 9 (0x01 :: 47 :: record3) 0 ∧ (∀ q, (busy.port q).Served) ∧
    (47 : TargetId).val = (47#8).toNat ∧ entryOfRecord record3 = some entry3 :=
  ⟨manages0 quiet0_busy (by decide), served_busy, by decide, by decide +kernel⟩

/-- Entry 47 and HP3 and the first numbers above them, and a port with a pending switch. -/
theorem witness_ReadsReportTheEntryAndTheProfile :
    (∀ body ∈ [[0x02, 47], [0x02, 48], [0x11, 3], [0x11, 4]], busy.Manages 0 9 body 0) ∧
      (47 : TargetId).val = (47#8).toNat ∧ 47 < (48#8).toNat ∧ (3 : PortId).val = (3#8).toNat ∧ 3 < (4#8).toNat ∧
      (hp3 fun v => { v with pendingSwitch := some ⟨v.format, .messageSent⟩ }).Manages 0 9 [0x11, 3] 0 := by
  refine ⟨fun body h => manages0 quiet0_busy ?_, by decide, by decide, by decide, by decide,
    manages0 (by decide +kernel) (by decide)⟩
  revert body
  decide

theorem witness_MapRetireInvalidatesTheEntry : ∀ u : Byte, u ∈ [3#8, 47#8] → busy.Manages 0 9 [0x03, u, 0] 0 ∧
    (∀ q, (busy.port q).Served) ∧ (busy.mapEntry 3).valid = true ∧ (busy.mapEntry 47).valid = false :=
  fun _ _ => ⟨manages0 quiet0_busy (by simp), served_busy, by decide +kernel, by decide +kernel⟩

theorem witness_PurgeAnswersTheWaitingRequests : busy.Manages 0 9 [0x03, 3, 1] 0 ∧ (∀ q, (busy.port q).Served) ∧
    busy.PoolFits ∧ (3 : TargetId).val = (3#8).toNat :=
  ⟨manages0 quiet0_busy (by decide), served_busy, pool_busy, by decide⟩

/-- The record of a profile with divisor `d` and the privilege flag `b`. -/
def profileRecord (d b : Byte) : List Byte := [0, d, 0, 1, 0, 0, 4, 3, b, 0]

theorem witness_PortSetChangesTheProfile :
    let f : LineFormat := { LineFormat.reset with divisor := 10 }
    (∀ q ∈ [0#8, 1#8, 2#8, 3#8], ∀ d ∈ [10#8, 120#8], ∀ b ∈ [0#8, 1#8],
      busy.Manages 0 9 (0x10 :: q :: profileRecord d b) 0) ∧
    profileOfRecord (profileRecord 120 0) = some ⟨LineFormat.reset, false, 0⟩ ∧
    profileOfRecord (profileRecord 10 1) = some ⟨f, true, 0⟩ ∧
    (∀ r, hasPort busy.managers r = true ↔ r = 0) ∧
    (let s := hp3 fun v => { v with pendingSwitch := some ⟨f, .messageSent⟩ };
      s.Manages 0 9 (0x10 :: 3 :: profileRecord 10 1) 0 ∧ (s.port 3).pendingSwitch.isSome = true) ∧
    ((∀ q, (busy.port q).pendingSwitch = none) ∧ LineFormat.reset = (busy.port 0).format ∧ f ≠ (busy.port 0).format) ∧
    ((busy.port 2).tx = .sending ∧ (busy.port 3).tx = .idle ∧ (busy.port 3).receiver ≠ .breakHold) ∧
    ∀ hrx : Bool, let s := hp3 fun v => { v with receiver := .breakHold, tx := .held, hrx := hrx }
      s.Manages 0 9 (0x10 :: 3 :: profileRecord 10 1) 0 ∧ (s.port 3).receiver = .breakHold ∧ (s.port 3).hrx = hrx := by
  refine ⟨fun q _ d _ b _ => manages0 quiet0_busy (by simp [profileRecord]), by decide +kernel, by decide +kernel, by decide +kernel,
    ⟨manages0 (by decide +kernel) (by decide), by decide +kernel⟩, by decide +kernel, by decide +kernel, fun hrx => ?_⟩
  cases hrx <;> exact ⟨manages0 (by decide +kernel) (by decide), by decide +kernel⟩

/-- A disable of Segment A, whose list is not empty, of Segment B, which runs, and of a calm one; and an enable. -/
theorem witness_SegSetReplacesTheSetup :
    (∀ g ∈ [0#8, 1#8], ∀ en ∈ [0#8, 1#8], busy.Manages 0 9 [0x20, g, en, 1, 255, 0] 0) ∧
    calm.Manages 0 9 [0x20, 0, 0, 1, 1, 255] 0 ∧
    ((busy.seg .A).engine ≠ .off ∧ (busy.seg .A).list ≠ []) ∧ (busy.seg .B).engine.isRun = true ∧
    ¬((calm.seg .A).engine.isRun = true ∨ (calm.seg .A).engine.isRecover = true ∨
      (calm.seg .A).engine ≠ .off ∧ ((calm.seg .A).list ≠ [] ∨ (calm.seg .A).recovery.isSome = true)) :=
  ⟨fun _ _ _ _ => manages0 quiet0_busy (by simp), manages0 (by decide +kernel) (by decide), by decide +kernel,
    by decide +kernel, by decide +kernel⟩

theorem witness_HoldAndReleaseSetTheFlag : ∀ b : Bool,
    let s := segA fun v => { v with held := b }
    s.Manages 0 9 [0x21, 0] 0 ∧ s.Manages 0 9 [0x22, 0] 0 ∧ (s.seg .A).held = b := by
  intro b
  cases b <;> exact ⟨manages0 (by decide +kernel) (by decide), manages0 (by decide +kernel) (by decide), rfl⟩

/-- The engine states that SEG_RECOVER and SEG_RESET tell apart, outside RUN. -/
def engines : List Engine := [.off, .check false, .check true, .idle, .recover false, .recover true, .fault]

theorem witness_SegRecoverIsDecidedByTheEngine :
    (∀ n ∈ engines, (segA fun v => { v with engine := n }).Manages 0 9 [0x23, 0] 0 ∧
      ((segA fun v => { v with engine := n }).seg .A).engine = n ∧
      ((segA fun v => { v with engine := n }).seg .A).recovery = none) ∧
    busy.Manages 0 9 [0x23, 1] 0 ∧ (busy.seg .B).engine.isRun = true ∧
    let s := segA fun v => { v with engine := .check false, recovery := some ⟨1, 5⟩ }
    s.Manages 0 9 [0x23, 0] 0 ∧ (s.seg .A).recovery.isSome = true := by
  refine ⟨fun n hn => ⟨manages0 ?_ (by simp), rfl, rfl⟩, manages0 quiet0_busy (by decide), by decide +kernel,
    manages0 (by decide +kernel) (by decide), rfl⟩
  revert n
  decide +kernel

theorem witness_SegResetOutsideRun : ∀ n ∈ engines, (segA fun v => { v with engine := n }).Manages 0 9 [0x24, 0] 0 ∧
    ((segA fun v => { v with engine := n }).seg .A).engine = n := by
  refine fun n hn => ⟨manages0 ?_ (by simp), rfl⟩
  revert n
  decide +kernel

/-- Before the opening start, after it with the clock high, in WRITE with the clock low, in STOP, and at the stop after a
failure. -/
theorem witness_SegResetAbortsARunningAttempt :
    (∀ a ∈ [{ writing with phase := .start, bytePos := 0, written := 0, timing := none }, writing,
      { writing with phase := .stop }, { writing with phase := .stop, failure := some ⟨.dataNack, .writeData⟩ }],
      (run a).Manages 0 9 [0x24, 1] 0 ∧ ((run a).seg .B).engine = .run a ∧ ((run a).seg .B).scl = false) ∧
    let a : Attempt := { writing with phase := .start, bytePos := 0, written := 0 }
    let s := busy.setSeg .B { runSeg a with scl := true, sda := false }
    s.Manages 0 9 [0x24, 1] 0 ∧ (s.seg .B).engine = .run a ∧ (s.seg .B).scl = true := by
  refine ⟨fun a ha => ⟨manages0 ?_ (by simp), rfl, rfl⟩, manages0 (by decide +kernel) (by decide), rfl, rfl⟩
  revert a
  decide +kernel

/-- HP0 itself, HP3, both segments and the pool, with and without the clear flag. -/
theorem witness_StatusReadReportsAndClears : ∀ sel ∈ [0x00#8, 0x03#8, 0x10#8, 0x11#8, 0x20#8], ∀ fl ∈ [0#8, 1#8],
    busy.Manages 0 9 [0x30, sel, fl] 0 ∧ fl.toNat ≤ 1 := by
  refine fun sel _ fl h => ⟨manages0 quiet0_busy (by simp), ?_⟩
  revert fl
  decide

theorem witness_RestartWaitsForItsReply : busy.Manages 0 9 [0x3F] 0 := manages0 quiet0_busy (by decide)

theorem slots_busy : ∀ i, i = 0 ∨ i = 1 ∨ i = 2 ∨ i = 3 ∨ busy.slot i = Slot.cleared := by decide +kernel

theorem witness_ChoiceTakesTheBestEligible : busy.resetn = true ∧ busy.PoolFits ∧ (busy.seg .B).engine ≠ .idle ∧
    (busy.seg .A).engine = .idle ∧ (busy.seg .A).monitor = .free ∧ busy.IsEligible .A 0 := by
  refine ⟨rfl, pool_busy, by decide +kernel, by decide +kernel, by decide +kernel, by decide +kernel, by decide +kernel,
    by decide +kernel, ?_⟩
  rintro j ⟨a, b, c, h⟩ hj
  have first : ∀ k, (busy.slot k).owner = (busy.slot 0).owner ∧ (busy.slot k).target = (busy.slot 0).target → k = 0 := by
    decide +kernel
  rw [first j hj] at h
  have count := congrArg (List.count 0) h
  rw [show List.count 0 (busy.seg .A).list = 1 from rfl] at count
  simp only [List.count_append, List.count_cons_self] at count
  omega

theorem witness_TimersActOnTheirRequests : busy.resetn = true ∧
    ((busy.slot 1).state = .deferred ∧ (busy.slot 1).retryTimer.isSome = true) ∧
    ((busy.slot 0).lifetimeTimer.isSome = true ∧ (busy.slot 0).state = .pending ∧ (busy.port (busy.slot 0).owner).Served) ∧
    let s := busy.setSlot 2 { running with lifetimeTimer := some 65535 }
    (s.slot 2).lifetimeTimer.isSome = true ∧ (s.slot 2).state = .active := by decide +kernel

/-- `busy` with the running request changed by `f`. -/
def ran (f : Slot → Slot) : State := busy.setSlot 2 (f running)

theorem pool_ran {f : Slot → Slot} (h : (f running).fitsB = true ∧ (f running).state = .active ∧ (f running).owner = 0 ∧
    (f running).tag = 2 ∧ (f running).admission = 2 ∧ (f running).snapshot.segment = .B) : (ran f).PoolFits :=
  pool_busy.setSlot (Slot.fits_of h.1) h.2.1 h.2.2.1 (fun _ => by decide +kernel) h.2.2.2.1 h.2.2.2.2.1 h.2.2.2.2.2

/-- An orphan; retries used up; a retry left with and without the deadline passed; the eighth loss; and an earlier one. -/
theorem witness_PoolSettlesAnEndedAttempt : ∀ f ∈ [fun r : Slot => { r with orphan := true },
      fun r => { r with retriesUsed := 3 }, fun r => { r with retriesUsed := 2 },
      fun r => { r with deadlinePassed := true }, fun r => { r with losses := 7 }, fun r => { r with losses := 6 },
      fun r => { r with operation := .probe, subAddress := none, writeData := [], readLength := none }],
    (ran f).PoolFits ∧ ((ran f).slot writing.slot).state = .active ∧
      ((ran f).port ((ran f).slot writing.slot).owner).Served := by
  intro f hf
  simp only [List.mem_cons, List.not_mem_nil, or_false] at hf
  rcases hf with rfl | rfl | rfl | rfl | rfl | rfl | rfl <;>
    exact ⟨pool_ran (by decide +kernel), by decide +kernel, by decide +kernel⟩

theorem witness_PhasesAndBytesOfAnAttempt : (running.operation = .xfer ∧ running.subAddress ≠ none ∧
    running.writeData ≠ [] ∧ running.snapshot.form ≠ .sevenBit ∧ running.snapshot.subWidth = 2 ∧
    running.phases = [.start, .address] ++ .subAddress :: .write :: [.restart, .addressRead, .read, .stop]) ∧
    (∀ n ∈ [Engine.off, .idle, .fault, .check false, .check true, .recover true, .recover false],
      ((segA fun v => { v with engine := n }).seg .A).engine = n) ∧
    { busy with resetn := false }.resetn = false ∧
    ((run { writing with failure := some ⟨.aborted, .writeData⟩ }).seg .B).engine =
      .run { writing with failure := some ⟨.aborted, .writeData⟩ } ∧
    ∀ ph ∈ [Phase.start, .address, .subAddress, .write, .restart, .addressRead, .read, .stop],
      (run { writing with phase := ph }).resetn = true ∧
        ((run { writing with phase := ph }).seg .B).engine = .run { writing with phase := ph } := by decide +kernel

/-- An attempt of slot 0 on Segment A that has its opening start to make. -/
def opening : Attempt := ⟨0, .start, false, 0, 0, [], none, false, none⟩

theorem witness_OpeningStartBeginsTheAttempt :
    (let s := segA fun v => { v with engine := .run opening };
      s.resetn = true ∧ (s.seg .A).engine = .run opening ∧ opening.timing = none ∧ (s.seg .A).monitor = .free ∧
        (s.seg .A).scl = true ∧ (s.seg .A).sda = true) ∧
    ((segA fun v => { v with engine := .run opening, monitor := .settling }).seg .A).monitor ≠ .free ∧
    writing.timing ≠ none := by decide +kernel

/-- One attempt in each phase but STOP, the last byte of READ and one before it among them; the levels that contradict the
byte sent and those that do not; an attempt with a failure, one in STOP, and one not opened. -/
theorem witness_AcknowledgeBitMovesTheAttempt :
    (∀ a ∈ [{ writing with phase := .start, bytePos := 0, written := 0 },
        { writing with phase := .address, bytePos := 1, written := 0 }, { writing with phase := .subAddress, written := 0 },
        writing, { writing with phase := .restart, written := 3 },
        { writing with phase := .addressRead, bytePos := 0, written := 3 },
        { writing with phase := .read, bytePos := 2, written := 3, readData := [1, 2] },
        { writing with phase := .read, bytePos := 3, written := 3, readData := [1, 2, 3] }],
      (run a).resetn = true ∧ ((run a).seg .B).engine = .run a ∧ a.failure = none ∧ a.timing ≠ none ∧ a.phase ≠ .stop ∧
        a.phase ∈ ((run a).slot a.slot).phases ∧ a.following = false) ∧
    (running.phaseBytes .write)[1]?.getD 0 = 0x22 ∧
    (∃ k < 8, (0x22#8).getMsbD k = true ∧ (0b01000000#8).getLsbD k = false) ∧
    (¬∃ k < 8, (0x22#8).getMsbD k = true ∧ (0b01000100#8).getLsbD k = false) ∧ running.readLength.getD 0 = 3 + 1 ∧
    ({ writing with phase := .stop, failure := some ⟨.dataNack, .writeData⟩ } : Attempt).failure ≠ none ∧
    opening.timing = none := by decide +kernel

/-- A loss on a released bit, on the no-acknowledge of the last byte of READ, at a repeated start, at a stop with a failure,
after an opening start, and in an abort; a bit that the engine drives low; and an engine that follows. -/
theorem witness_ArbitrationLostFollowsOrEnds :
    (∀ a ∈ [writing, { writing with phase := .read, bytePos := 3, written := 3, readData := [1, 2, 3] },
        { writing with phase := .restart, bytePos := 0, written := 3 },
        { writing with phase := .stop, failure := some ⟨.dataNack, .writeData⟩ },
        { writing with phase := .start, bytePos := 0, written := 0 }, { writing with failure := some ⟨.aborted, .writeData⟩ }],
      (run a).resetn = true ∧ ((run a).seg .B).engine = .run a ∧ a.following = false) ∧
    (writing.past running = writing ∧ ((running.phaseBytes .write)[1]?.getD 0).getMsbD 2 = true ∧
      ((running.phaseBytes .write)[1]?.getD 0).getMsbD 1 = false ∧ running.readLength.getD 0 ≤ 3 + 1) ∧
    (({ writing with phase := .start, bytePos := 0, written := 0 } : Attempt).past running).phase = .address ∧
    ((running.phaseBytes .address)[0]?.getD 0).getMsbD 0 = true ∧
    (({ writing with failure := some ⟨.aborted, .writeData⟩ } : Attempt).past running).phase = .stop ∧
    { writing with failure := some ⟨.arbitrationLost, .writeData⟩, following := true }.following = true := by
  decide +kernel

/-- Before the opening start with the monitor FREE; and a following, with the monitor BUSY and SETTLING. -/
theorem witness_LossesEndAtTheWire :
    (let s := segA fun v => { v with engine := .run opening };
      s.resetn = true ∧ (s.seg .A).engine = .run opening ∧ opening.timing = none ∧ (s.seg .A).monitor = .free) ∧
    let a : Attempt := { writing with failure := some ⟨.arbitrationLost, .writeData⟩, following := true }
    (run a).resetn = true ∧ ((run a).seg .B).engine = .run a ∧ a.failure = some ⟨.arbitrationLost, .writeData⟩ ∧
      a.following = true ∧ a.timing ≠ none ∧ ((run a).seg .B).monitor = .busy ∧
      ((busy.setSeg .B { runSeg a with monitor := .settling }).seg .B).monitor ≠ .free := by decide +kernel

/-- The four outcomes in STOP, and an abort that has not reached it. -/
theorem witness_StopsEndAttempts :
    (∀ f ∈ [none, some ⟨.addressNack, .address⟩, some ⟨.dataNack, .writeData⟩, some ⟨.aborted, .readData⟩],
      let a : Attempt := { writing with phase := .stop, bytePos := 0, failure := f };
      (run a).resetn = true ∧ ((run a).seg .B).engine = .run a ∧ a.following = false ∧ a.failure = f) ∧
    ((run { writing with failure := some ⟨.aborted, .writeData⟩ }).seg .B).engine =
      .run { writing with failure := some ⟨.aborted, .writeData⟩ } := by decide +kernel

theorem witness_StretchTimeoutEndsTheAttempt :
    (∀ a ∈ [writing, { writing with phase := .stop, failure := some ⟨.dataNack, .writeData⟩ },
      { writing with failure := some ⟨.arbitrationLost, .writeData⟩, following := true },
      { writing with phase := .restart, restarted := true }],
      (run a).resetn = true ∧ ((run a).seg .B).engine = .run a ∧ a.timing ≠ none) ∧ opening.timing = none := by
  decide +kernel

/-- Each monitor state with the engine IDLE, with and without the bus-free timer; and running attempts in WRITE, in RESTART
before and after its repeated start, and in an abort, each with a monitor that is not FREE, its clock last seen low and high. -/
theorem witness_MonitorFollowsTheWire :
    (∀ m ∈ [Monitor.busy, .settling, .free], ∀ b ∈ [none, some 5],
      let s := segA fun v => { v with monitor := m, busFreeTimer := b };
      s.resetn = true ∧ (s.seg .A).monitor = m ∧ (s.seg .A).engine = .idle ∧ (s.seg .A).busFreeTimer = b) ∧
    ∀ a ∈ [writing, { writing with phase := .restart }, { writing with phase := .restart, restarted := true },
        { writing with failure := some ⟨.aborted, .writeData⟩ }],
      ((run a).seg .B).engine = .run a ∧ a.timing ≠ none ∧ a.following = false ∧ ((run a).seg .B).monitor ≠ .free ∧
        ((run a).seg .B).scl = false ∧ ((busy.setSeg .B { runSeg a with scl := true, sda := false }).seg .B).scl = true := by
  decide +kernel

theorem witness_BusyLongIsReportedOnce : ∀ b : Bool,
    let s := segA fun v => { v with monitor := .busy, busyLongTimer := some 1, busyLongReported := b }
    s.resetn = true ∧ (∀ q, (s.port q).Served) ∧ (s.seg .A).busyLongTimer.isSome = true ∧
      (s.seg .A).busyLongReported = b := by decide +kernel

theorem witness_QuietLinesReachIdle : ∀ b : Bool,
    let s := segA fun v => { v with engine := .check b, quietTimer := if b then none else some 5, stopOwed := b }
    let u := segA fun v => { v with engine := .check false, quietTimer := some 5, stopOwed := b }
    s.resetn = true ∧ (∀ q, (s.port q).Served) ∧ (s.seg .A).engine = .check b ∧
      (u.seg .A).quietTimer.isSome = true ∧ (u.seg .A).stopOwed = b := by decide +kernel

theorem pool_check {n : Engine} {t : Option Nat} {k : Nat} (hr : n.isRun = false) (hd : n.down = false) :
    (segA fun v => { v with engine := n, clockHeldTimer := t, pulseCount := k }).PoolFits := pool_segA rfl hr hd

/-- A held clock in CHECK, in a closing stop and in RECOVER; the ninth pulse; and the stop after nine. -/
theorem witness_FaultAnswersTheList :
    ∀ x ∈ [(Engine.check false, some 25, 0), (.check true, none, 0), (.recover true, none, 3), (.recover false, none, 8),
      (.recover true, none, 9)],
      let s := segA fun v => { v with engine := x.1, clockHeldTimer := x.2.1, pulseCount := x.2.2 }
      s.resetn = true ∧ s.PoolFits ∧ (∀ q, (s.port q).Served) ∧ (s.seg .A).engine = x.1 ∧
        (s.seg .A).clockHeldTimer = x.2.1 ∧ (s.seg .A).pulseCount = x.2.2 := by
  intro x hx
  simp only [List.mem_cons, List.not_mem_nil, or_false] at hx
  rcases hx with rfl | rfl | rfl | rfl | rfl <;>
    exact ⟨rfl, pool_check rfl rfl, by decide +kernel, rfl, rfl, rfl⟩

/-- A held data line in CHECK; the first and the eighth pulse; the stop after eight pulses; and a closing stop. -/
theorem witness_RecoveryPulsesAndStops :
    (let s := segA fun v => { v with engine := .check false, sda := false, dataHeldTimer := some 1 };
      s.resetn = true ∧ (s.seg .A).dataHeldTimer.isSome = true) ∧
    ∀ x ∈ [(Engine.recover false, 0), (.recover false, 7), (.recover true, 8), (.check true, 0)],
      let s := segA fun v => { v with engine := x.1, pulseCount := x.2 };
      s.resetn = true ∧ (s.seg .A).engine = x.1 ∧ (s.seg .A).pulseCount = x.2 := by decide +kernel

/-- HP2 sends a RESULT with and without a switch due, HP1 an MREPLY whose switch point it is, HP0 the reply to a RESTART; and
a character that a break let finish ends in and after break hold. -/
theorem witness_CompletionReleasesTheHeadItem :
    let f : LineFormat := { LineFormat.reset with divisor := 10 }
    let w (point : SwitchPoint) : PendingSwitch := ⟨f, point⟩
    ((busy.port 2).tx = .sending ∧ (busy.port 2).queue = .result 3 :: [] ∧ (busy.port 2).pendingSwitch = none) ∧
    (∀ point ∈ [SwitchPoint.messageSent, .replySent 0],
      let s := hp2 fun v => { v with tx := .sending, queue := [.result 3], pendingSwitch := some (w point) };
      s.resetn = true ∧ (s.port 2).tx = .sending ∧ (s.port 2).queue = .result 3 :: [] ∧
        (s.port 2).pendingSwitch = some (w point)) ∧
    (∀ b : Bool,
      let x : StoreEntry := ⟨.mreply, .inTransmission, 9, [0x3F, 0], none, b⟩;
      let s := hp2 fun v => { v with
        tx := .sending, queue := [.entry 5], store := v.store.set 5 (some x), pendingSwitch := some (w (.replySent 5)) };
      s.resetn = true ∧ (s.port 2).tx = .sending ∧ (s.port 2).queue = .entry 5 :: [] ∧
        (s.port 2).store[(5 : StoreIx)] = some x ∧ x.restartReply = b ∧ (s.port 2).pendingSwitch = some (w (.replySent 5))) ∧
    ∀ r ∈ [Receiver.breakHold, .ready],
      let s := hp2 fun v => { v with tx := .finishing, receiver := r };
      s.resetn = true ∧ (s.port 2).tx = .finishing ∧ (s.port 2).receiver = r := by decide +kernel

/-! The premises of the invariants and of the bounds hold in `busy`, a state with a request in every state. -/

theorem timers_busy : busy.TimersFit := timersFit_of rfl (by decide +kernel) (by decide +kernel)

theorem stores_busy : busy.StoresFit := by
  have store : ∀ p, (busy.port p).store = Vector.replicate 6 none := by decide +kernel
  have quiet : ∀ p, (busy.port p).assembly = ⟨.idle, []⟩ ∧ (busy.port p).gapTimer = none ∧ (busy.port p).spaceTimer = none ∧
      (busy.port p).receiver = .ready ∧ (busy.port p).tx ≠ .held ∧ (busy.port p).pendingSwitch = none ∧
      (∀ e, (busy.port p).queue.count (.entry e) = 0) ∧
      ((busy.port p).tx = .sending → (busy.port p).queue = [.result 3]) := by decide +kernel
  refine storesFit_of (fun p => ?_) (fun p => ?_) store (by decide +kernel) (by decide +kernel) (by decide +kernel)
    (by decide +kernel) <;> obtain ⟨ha, hg, hs, hr, ht, hw, hq, hx⟩ := quiet p
  · exact Port.lineFits_of_quiet ha hg hs (.inl hr) ht (served_busy p)
  · exact Port.storeFits_of_empty (store p) hq (fun h => by simp [hx h]) hw

theorem transfers_busy : busy.TransfersFit := by
  constructor
  · intro i hi
    rcases slots_busy i with rfl | rfl | rfl | rfl | h
    · exact ⟨by decide +kernel, show (busy.slot 0).writeData ≠ [] ∧ (busy.slot 0).readLength = none by decide +kernel⟩
    · exact ⟨by decide +kernel, show (busy.slot 1).writeData ≠ [] ∧ (busy.slot 1).readLength = none by decide +kernel⟩
    · exact ⟨by decide +kernel, show 1 ≤ (busy.slot 2).readLength.getD 0 by decide +kernel⟩
    · exact ⟨by decide +kernel, show (busy.slot 3).writeData ≠ [] ∧ (busy.slot 3).readLength = none by decide +kernel⟩
    · rw [h] at hi; exact absurd hi (by decide)
  · have h : ∀ i, (busy.slot i).snapshot.retryLimit ≤ 7 ∧ (busy.slot i).retriesUsed ≤ (busy.slot i).snapshot.retryLimit ∧
      (busy.slot i).losses ≤ Config.lossLimit ∧ ((busy.slot i).state ≠ .answer → (busy.slot i).losses < Config.lossLimit) ∧
      (busy.slot i).passedOver ≤ Config.promotion ∧
      (busy.slot i).attempts ≤ (busy.slot i).retriesUsed + (busy.slot i).losses +
        (if (busy.slot i).state = .answer ∧ (busy.slot i).losses < Config.lossLimit ∨
          (busy.slot i).state = .active ∧ busy.opened i = true then 1 else 0) := by decide +kernel
    exact fun i _ => ⟨(h i).1, (h i).2.1, (h i).2.2.1, (h i).2.2.2.1, (h i).2.2.2.2.1, (h i).2.2.2.2.2⟩
  · refine forall_seg (fun a h => ?_) fun a h => ?_
    · simp [show (busy.seg .A).engine = .idle from rfl] at h
    · obtain rfl : writing = a := by simpa [show (busy.seg .B).engine = .run writing from rfl] using h
      constructor <;> decide +kernel
  · intro i res h
    rcases slots_busy i with rfl | rfl | rfl | rfl | e
    · simp [show (busy.slot 0).result = none by decide +kernel] at h
    · simp [show (busy.slot 1).result = none by decide +kernel] at h
    · simp [show (busy.slot 2).result = none by decide +kernel] at h
    · obtain rfl : (⟨.ok, .none, 2, []⟩ : Result) = res := by
        simpa [show (busy.slot 3).result = some ⟨.ok, .none, 2, []⟩ by decide +kernel] using h
      constructor <;> decide +kernel
    · rw [e] at h; simp [Slot.cleared] at h

theorem legal_busy : busy.Legal :=
  ⟨timers_busy, by unfold State.MapFits; decide +kernel, ⟨0, by decide +kernel⟩, stores_busy, pool_busy, transfers_busy⟩

/-- A choice is the next command of a legal state. -/
theorem legal_choosing : { busy with pending := [.choice .A] }.Legal :=
  let h := legal_busy
  ⟨h.timers, h.map, h.managed, ⟨h.stores.lines, h.stores.stores, h.stores.health, h.stores.asked, h.stores.kept, h.stores.once⟩,
    ⟨h.pool.slots, h.pool.numbered, h.pool.distinct, h.pool.listed, h.pool.aged, h.pool.running, h.pool.active, h.pool.down,
      h.pool.queued, h.pool.window, h.pool.tags⟩,
    ⟨h.transfers.fields, h.transfers.counts, h.transfers.attempts, h.transfers.results⟩⟩

theorem witness_TimersStayFitted : ∃ s t : State, s.TimersFit ∧ step s = .next t ∧ t ≠ s :=
  ⟨{ busy with pending := [.choice .A] }, _, legal_choosing.timers, rfl, by decide +kernel⟩

/-- The premises of PoolStaysFitted, StoresStayFitted, TransfersStayFitted, MapAndManagersStayLegal and
LegalStatesKeepTheBounds. -/
theorem witness_LegalStates : ∃ s t : State, s.Legal ∧ step s = .next t ∧ (t.slot 0).state ≠ (s.slot 0).state :=
  ⟨{ busy with pending := [.choice .A] }, _, legal_choosing, rfl, by decide +kernel⟩

theorem witness_SegmentsAreIndependent : ∃ t : State, segmentOf (.choice .A) = some .A ∧ SegId.B ≠ .A ∧ busy.PoolFits ∧
    exec (.choice .A) busy = .next t ∧ t.segA ≠ busy.segA :=
  ⟨_, rfl, by decide, pool_busy, rfl, by decide +kernel⟩

/-- A MAP_WRITE that changes the map, and a PORT_SET that changes the managers. -/
theorem witness_OnlyManagersChangeMapAndManagers :
    gives (.mapWrite 0 9 (4 :: record3)) busy (fun t => decide (t.map ≠ busy.map)) = true ∧
      gives (.portSet 0 9 (3 :: profileRecord 120 1)) busy (fun t => decide (t.managers ≠ busy.managers)) = true := by
  decide +kernel

end Sys2Proof.Tests
end

section
/-! SUPPORT. The state that a device reset leaves (R5, R22, R59, R83, R115, R133, R170, R171). -/
namespace Sys2Proof.Machine

/-! ## The blocks of a part in reset -/

section
variable (s : State)

@[simp] theorem mapEntry_inReset (t : TargetId) : s.inReset.mapEntry t = MapEntry.reset := by
  simp [State.mapEntry, State.inReset, -map_get]

@[simp] theorem slot_inReset (i : SlotId) : s.inReset.slot i = Slot.cleared := by
  simp [State.slot, State.inReset, -slots_get]

@[simp] theorem seg_inReset (g : SegId) : s.inReset.seg g = Seg.resetHeld (s.seg g).scl (s.seg g).sda := by
  cases g <;> rfl

@[simp] theorem port_inReset (p : PortId) : s.inReset.port p = Port.reset (s.port p).hrx := by
  match p with
  | 0 => rfl
  | 1 => rfl
  | 2 => rfl
  | 3 => rfl

/-- Only HP0 is a manager after a reset (R171). -/
theorem hasPort_inReset : ∀ p, hasPort s.inReset.managers p = true ↔ p = 0 := by
  show ∀ p, hasPort 1#4 p = true ↔ p = 0
  decide

end

/-- Settles O4. -/
theorem deviceResetLeavesResetValues : Obligations.DeviceResetLeavesResetValues := fun s =>
  ⟨s.inReset, rfl, rfl, rfl, rfl, rfl, hasPort_inReset s, mapEntry_inReset s, slot_inReset s, seg_inReset s,
    port_inReset s⟩

/-! ## The state after reset is legal -/

theorem slot_reset (i : SlotId) : State.reset.slot i = Slot.cleared := by
  simp [State.slot, State.reset, -slots_get]

theorem port_reset (p : PortId) : State.reset.port p = Port.reset true := by
  simp [State.port, State.reset, -ports_get]

theorem mapEntry_reset (t : TargetId) : State.reset.mapEntry t = MapEntry.reset := by
  simp [State.mapEntry, State.reset, -map_get]

theorem seg_reset (g : SegId) : State.reset.seg g = Seg.resetHigh := by cases g <;> rfl

theorem listFits_reset (g : SegId) : State.reset.listFits g := by
  simp [State.listFits, seg_reset, slot_reset, Seg.resetHigh, Seg.resetHeld, Slot.cleared, Slot.waiting, Engine.runs]

theorem occupied_reset (p : PortId) : State.reset.occupied p = 0 := by
  simp [State.occupied, slot_reset, Slot.occupied, Slot.cleared]

theorem poolFits_reset : State.reset.PoolFits := by
  have vacant i : (State.reset.slot i).occupied = false := by rw [slot_reset]; rfl
  have dead i : (State.reset.slot i).live = false := by rw [slot_reset]; rfl
  refine poolFits_of (fun i => ?_) (fun i h => ?_) (fun i j h => ?_) (listFits_reset .A) (listFits_reset .B)
    (fun i h => ?_) (fun p i => ?_) (fun p => ?_) (fun i j h => ?_)
  · rw [slot_reset]; decide
  · simp [vacant i] at h
  · simp [vacant i] at h
  · simp [slot_reset, Slot.cleared] at h
  · simp [slot_reset, port_reset, Port.reset, Slot.cleared]
  · rw [occupied_reset]; exact Nat.zero_le _
  · simp [dead i] at h

theorem storesFit_reset : State.reset.StoresFit := by
  refine storesFit_of (fun p => ?_) (fun p => ?_) (fun p => ?_) (by decide) (by decide) rfl rfl <;> rw [port_reset]
  · exact Port.lineFits_of_quiet rfl rfl rfl (.inr rfl) (by decide) (fun _ => rfl)
  · exact Port.storeFits_of_empty rfl (fun _ => rfl) (fun h => by cases h) rfl
  · rfl

theorem transfersFit_reset : State.reset.TransfersFit := by
  have vacant i : (State.reset.slot i).occupied = false := by rw [slot_reset]; rfl
  refine ⟨fun i h => ?_, fun i h => ?_, fun g a h => ?_, fun i res h => ?_⟩
  · simp [vacant i] at h
  · simp [vacant i] at h
  · simp [seg_reset, Seg.resetHigh, Seg.resetHeld] at h
  · simp [slot_reset, Slot.cleared] at h

/-- Settles O52: each invariant holds of the reset values, block by block. -/
theorem resetIsLegal : Obligations.ResetIsLegal where
  timers := timersFit_of rfl (by decide) (by decide)
  map t h := by simp [mapEntry_reset, MapEntry.reset] at h
  managed := ⟨0, by decide⟩
  stores := storesFit_reset
  pool := poolFits_reset
  transfers := transfersFit_reset

end Sys2Proof.Machine
end

section
/-! SUPPORT. The entry record and the profile record read back what they write (R155, R156, R175, R178). -/
namespace Sys2Proof.Machine

/-! ## Bytes and 16-bit fields -/

@[simp] theorem toNat_byte (n : Nat) : (byte n).toNat = n % 256 := by simp [byte]

@[simp] theorem byte_toNat (b : Byte) : byte b.toNat = b := by simp [byte]

theorem word16_lt (hi lo : Byte) : word16 hi lo < 65536 := by unfold word16; omega

theorem byte_word16_high (hi lo : Byte) : byte (word16 hi lo / 256) = hi := by
  rw [← BitVec.toNat_inj, toNat_byte]; unfold word16; omega

theorem byte_word16_low (hi lo : Byte) : byte (word16 hi lo) = lo := by
  rw [← BitVec.toNat_inj, toNat_byte]; unfold word16; omega

/-- A 16-bit value is read back from its two bytes. -/
theorem word16_bytes {n : Nat} (h : n ≤ 65535) : word16 (byte (n / 256)) (byte n) = n := by
  unfold word16; rw [toNat_byte, toNat_byte]; omega

theorem toNat_byte_of_le {n : Nat} (h : n ≤ 255) : (byte n).toNat = n := by rw [toNat_byte]; omega

/-! ## Codes -/

/-- A byte that must be 0 or 1 names the value whose code it is. -/
theorem binaryCode_iff {α : Type} [DecidableEq α] {b : Byte} {x y z : α} (hne : x ≠ y) (hz : z = x ∨ z = y) :
    (if b = 0 then some x else if b = 1 then some y else none) = some z ↔ b = if z = x then 0 else 1 := by
  have h01 : ¬(1 : Byte) = 0 := by decide
  constructor
  · intro h
    split at h
    · next e => cases h; rw [if_pos rfl, e]
    · split at h
      · next e => cases h; rw [if_neg hne.symm, e]
      · cases h
  · rintro rfl
    rcases hz with rfl | rfl
    · simp
    · rw [if_neg hne.symm, if_neg h01, if_pos rfl]

theorem segOf_iff {b : Byte} {g : SegId} : segOf b = some g ↔ b = if g = .A then 0 else 1 :=
  binaryCode_iff (by decide) (by cases g <;> decide)

theorem formOf_iff {b : Byte} {f : AddressForm} : formOf b = some f ↔ b = if f = .sevenBit then 0 else 1 :=
  binaryCode_iff (by decide) (by cases f <;> decide)

theorem speedOf_iff {b : Byte} {v : Speed} : speedOf b = some v ↔ b = if v = .standard then 0 else 1 :=
  binaryCode_iff (by decide) (by cases v <;> decide)

theorem flagOf_iff {b : Byte} {v : Bool} : flagOf b = some v ↔ b = if v then 1 else 0 := by
  have h : flagOf b = some v ↔ b = if v = false then 0 else 1 :=
    binaryCode_iff (by decide) (by cases v <;> decide)
  rw [h]; cases v <;> rfl

theorem parityOf_iff {b : Byte} {v : Parity} : parityOf b = some v ↔ b = v.code := by
  constructor
  · intro h
    unfold parityOf at h
    split at h
    · cases h; assumption
    · split at h
      · cases h; assumption
      · split at h
        · cases h; assumption
        · cases h
  · rintro rfl
    cases v <;> rfl

theorem portSetOf_iff {b : Byte} {ps : PortSet} : portSetOf b = some ps ↔ b = ps.setWidth 8 := by
  constructor
  · intro h
    unfold portSetOf at h
    split at h
    · next hb =>
      cases h
      rw [← BitVec.toNat_inj]
      simp only [BitVec.toNat_setWidth]
      omega
    · cases h
  · rintro rfl
    have hlt := ps.isLt
    have hn : (ps.setWidth 8).toNat = ps.toNat := by rw [BitVec.toNat_setWidth]; omega
    rw [portSetOf, hn, if_pos hlt, Option.some.injEq, ← BitVec.toNat_inj, BitVec.toNat_setWidth, hn]
    omega

/-! ## The entry record (R155) -/

theorem MapEntry.inRange_iff (x : MapEntry) : x.inRange = true ↔
    ((x.form = .sevenBit → 0x08 ≤ x.address ∧ x.address ≤ 0x77) ∧ (x.form = .tenBit → x.address ≤ 1023)) ∧
    (x.subWidth = 0 ∨ x.subWidth = 1 ∧ x.windowLow ≤ x.windowHigh ∧ x.windowHigh ≤ 255 ∨
      x.subWidth = 2 ∧ x.windowLow ≤ x.windowHigh ∧ x.windowHigh ≤ 65535) ∧
    1 ≤ x.maxTransfer ∧ x.maxTransfer ≤ 64 ∧ x.priority ≤ 3 ∧ x.retryLimit ≤ 7 ∧
    1 ≤ x.retryInterval ∧ x.retryInterval ≤ 255 ∧ x.slowDown ≤ 3 := by
  unfold MapEntry.inRange
  match hw : x.subWidth with
  | 0 => cases hf : x.form <;> simp [and_assoc]
  | 1 => cases hf : x.form <;> simp [and_assoc]
  | 2 => cases hf : x.form <;> simp [and_assoc]
  | n + 3 => cases hf : x.form <;> simp

/-- A record read as an entry is that entry's record, and the entry is valid and in range. -/
theorem entryOfRecord_sound {rec : List Byte} {x : MapEntry} (h : entryOfRecord rec = some x) :
    rec = x.layout ∧ x.valid = true ∧ x.inRange = true ∧ x.windowLow ≤ 65535 ∧ x.windowHigh ≤ 65535 := by
  unfold entryOfRecord at h
  split at h
  · split at h
    · next hs hf hr hw hv =>
      dsimp only at h
      split at h
      · next hin =>
        cases h
        refine ⟨?_, rfl, hin, Nat.le_of_lt_succ (word16_lt _ _), Nat.le_of_lt_succ (word16_lt _ _)⟩
        simp only [MapEntry.layout, byte_word16_high, byte_word16_low, byte_toNat, ← segOf_iff.mp hs, ← formOf_iff.mp hf,
          ← portSetOf_iff.mp hr, ← portSetOf_iff.mp hw, ← speedOf_iff.mp hv]
      · cases h
    · cases h
  · cases h

/-- The record of a valid entry in range is read as that entry. -/
theorem entryOfRecord_layout {x : MapEntry} (hv : x.valid = true) (h : x.inRange = true) (hl : x.windowLow ≤ 65535)
    (hh : x.windowHigh ≤ 65535) : entryOfRecord x.layout = some x := by
  obtain ⟨⟨hf7, hf10⟩, hw, hm1, hm2, hp, hr, hi1, hi2, hs⟩ := x.inRange_iff.mp h
  have ha : x.address ≤ 65535 := by cases hf : x.form <;> [have := hf7 hf; have := hf10 hf] <;> omega
  have hsub : x.subWidth ≤ 255 := by omega
  have hfields : ({ x with valid := true } : MapEntry) = x := by rw [← hv]
  simp only [entryOfRecord, MapEntry.layout, segOf_iff.mpr rfl, formOf_iff.mpr rfl, portSetOf_iff.mpr rfl,
    speedOf_iff.mpr rfl, word16_bytes ha, word16_bytes hl, word16_bytes hh, toNat_byte_of_le hsub,
    toNat_byte_of_le (show x.maxTransfer ≤ 255 by omega), toNat_byte_of_le (show x.priority ≤ 255 by omega),
    toNat_byte_of_le (show x.retryLimit ≤ 255 by omega), toNat_byte_of_le hi2,
    toNat_byte_of_le (show x.slowDown ≤ 255 by omega), hfields]
  rw [if_pos h]

/-! ## The profile record (R156) -/

theorem LineFormat.inRange_iff (f : LineFormat) : f.inRange = true ↔
    1 ≤ f.divisor ∧ f.divisor ≤ 1023 ∧ (f.stopBits = 1 ∨ f.stopBits = 2) ∧
      2 ≤ f.gapTime ∧ f.gapTime ≤ 15 ∧ 2 ≤ f.breakThreshold ∧ f.breakThreshold ≤ 15 := by
  simp only [LineFormat.inRange, Bool.and_eq_true, decide_eq_true_eq, and_assoc]

theorem LineFormat.layout_eq_record (f : LineFormat) : f.layout = f.record := by
  obtain ⟨_, parity, _, _, _, _, _⟩ := f
  cases parity <;> rfl

/-- The ten bytes of a profile record. -/
def Profile.layout (x : Profile) : List Byte := x.format.layout ++ [if x.privilege then 1 else 0, x.mask.setWidth 8]

theorem profileOfRecord_sound {rec : List Byte} {x : Profile} (h : profileOfRecord rec = some x) :
    rec = x.layout ∧ x.format.inRange = true := by
  unfold profileOfRecord at h
  split at h
  · split at h
    · next hp ho hb hv hm =>
      dsimp only at h
      split at h
      · next hin =>
        cases h
        refine ⟨?_, hin⟩
        simp only [Profile.layout, LineFormat.layout_eq_record, LineFormat.record, bytes16, flagByte, List.cons_append,
          List.nil_append, byte_word16_high, byte_word16_low, byte_toNat, ← parityOf_iff.mp hp,
          ← flagOf_iff.mp ho, ← flagOf_iff.mp hb, ← flagOf_iff.mp hv, ← portSetOf_iff.mp hm]
      · cases h
    · cases h
  · cases h

theorem profileOfRecord_layout {x : Profile} (h : x.format.inRange = true) : profileOfRecord x.layout = some x := by
  obtain ⟨_, hd, hs, _, hg, _, hb⟩ := x.format.inRange_iff.mp h
  simp only [profileOfRecord, Profile.layout, LineFormat.layout_eq_record, LineFormat.record, bytes16, flagByte,
    List.cons_append, List.nil_append, parityOf_iff.mpr rfl, flagOf_iff.mpr rfl, portSetOf_iff.mpr rfl,
    word16_bytes (show x.format.divisor ≤ 65535 by omega),
    toNat_byte_of_le (show x.format.stopBits ≤ 255 by omega), toNat_byte_of_le (show x.format.gapTime ≤ 255 by omega),
    toNat_byte_of_le (show x.format.breakThreshold ≤ 255 by omega)]
  rw [if_pos h]

/-- Settles O23: what is read is in range and has that record, and such a record is read back. -/
theorem recordsHoldExactlyTheLegalValues : Obligations.RecordsHoldExactlyTheLegalValues := by
  refine ⟨fun rec x => ⟨fun h => ?_, ?_⟩, fun rec x => ⟨fun h => ?_, ?_⟩⟩
  · obtain ⟨hr, hv, hin, hl, hh⟩ := entryOfRecord_sound h
    obtain ⟨⟨hf7, hf10⟩, hw, hrest⟩ := x.inRange_iff.mp hin
    exact ⟨hr, hv, hf7, hf10, hw.imp_left fun h0 => ⟨h0, hl, hh⟩, hrest⟩
  · rintro ⟨rfl, hv, hf7, hf10, hw, hrest⟩
    exact entryOfRecord_layout hv (x.inRange_iff.mpr ⟨⟨hf7, hf10⟩, hw.imp_left And.left, hrest⟩) (by omega) (by omega)
  · obtain ⟨hr, hin⟩ := profileOfRecord_sound h
    exact ⟨hr, x.format.inRange_iff.mp hin⟩
  · rintro ⟨rfl, hin⟩
    exact profileOfRecord_layout (x.format.inRange_iff.mpr hin)

end Sys2Proof.Machine
end

section
/-! SUPPORT. A TXN that is admitted (R13, R19, R28). -/
namespace Sys2Proof.Machine

section
variable {s : State} {p : PortId} {kind tag : Byte} {body : List Byte}

/-- A good message whose frame a port can hear is handed on there, whatever its transmitter does (R139, R144). -/
theorem completeMessage_of_hears (hf : body.length ≤ 200) (hh : (s.port p).Hears (frameOf kind tag body)) :
    s.completeMessage p kind tag body = (s.setPort p (s.port p).framed).takeMessage p kind tag body := by
  unfold State.completeMessage State.completeFrame State.judgeFrame State.modPort
  rw [if_pos ⟨hf, (canComplete_iff _ _).mpr hh⟩, if_pos rfl]
  simp only [port_setPort, setPort_setPort]
  rfl

theorem completeTxn_of_hears (hf : body.length ≤ 200) (hh : (s.port p).Hears (frameOf kindTxn tag body)) :
    s.completeMessage p kindTxn tag body = (s.heard p).takeTxn p tag body := by
  rw [completeMessage_of_hears hf hh, State.takeMessage, accepted_eq]
  simp [kindVersion, kindCode, kindTxn]

end

/-- Admission reads the map, the slots and the segments, and nothing of a port (R25). -/
theorem checkTxn_setPort (s : State) (q : PortId) (v : Port) (p : PortId) (tag : Byte) (body : List Byte) :
    (s.setPort q v).checkTxn p tag body = s.checkTxn p tag body := rfl

theorem fillSlot_eq (s : State) (p : PortId) (tag : Byte) (a : Admission) :
    s.fillSlot p tag a =
      { (s.setSlot a.slot (Slot.admitted p tag a s.nextAdmission)).setSeg a.entry.segment
          { s.seg a.entry.segment with list := (s.seg a.entry.segment).list ++ [a.slot] } with
        nextAdmission := s.nextAdmission + 1 } := by
  simp only [State.fillSlot, seg_setSlot, nextAdmission_setSeg, nextAdmission_setSlot]

/-- Settles O17: the message is handed on, passes the eleven checks, and fills its slot. -/
theorem admittedRequestFillsItsSlot : Obligations.AdmittedRequestFillsItsSlot := by
  intro p tag body a s hr hf hh ha
  have taken : (s.heard p).takeTxn p tag body = (s.heard p).fillSlot p tag a := by
    rw [State.takeTxn, State.heard, checkTxn_setPort, ha]
  show execTxn p tag body s = _
  rw [execTxn, running_of hr, completeTxn_of_hears hf hh, taken, fillSlot_eq, State.heard]
  simp only [seg_setPort, nextAdmission_setPort]
  rfl

end Sys2Proof.Machine
end

section
/-! SUPPORT. The map and the set of managers (R5, R15, R16, R171): what each operation leaves of them, and which commands
can change them. -/
namespace Sys2Proof.Machine

/-- The part's configuration that only management changes: the target map and the set of managers (R3, R171). -/
structure Charter where
  map : Vector MapEntry 48
  managers : PortSet

/-- The charter of a state. -/
def State.charter (s : State) : Charter := ⟨s.map, s.managers⟩

/-! ## Operations that leave the charter -/

section
variable (s : State) (p q : PortId) (i : SlotId) (g : SegId) (a : Attempt)

@[simp] theorem charter_setPort (v : Port) : (s.setPort p v).charter = s.charter := rfl
@[simp] theorem charter_modPort (f : Port → Port) : (s.modPort p f).charter = s.charter := rfl
@[simp] theorem charter_setSlot (r : Slot) : (s.setSlot i r).charter = s.charter := rfl
@[simp] theorem charter_modSlot (f : Slot → Slot) : (s.modSlot i f).charter = s.charter := rfl
@[simp] theorem charter_releaseSlot : (s.releaseSlot i).charter = s.charter := rfl
@[simp] theorem charter_setSeg (v : Seg) : (s.setSeg g v).charter = s.charter := by cases g <;> rfl
@[simp] theorem charter_modSeg (f : Seg → Seg) : (s.modSeg g f).charter = s.charter := charter_setSeg s g _
@[simp] theorem charter_withFreeCount (n : Nat) : ({ s with freeCount := n } : State).charter = s.charter := rfl

/-- What each step of a fold leaves, the fold leaves. -/
theorem charter_foldl {α : Type} {f : State → α → State} (h : ∀ s x, (f s x).charter = s.charter) (l : List α)
    (s : State) : (l.foldl f s).charter = s.charter := by
  induction l generalizing s with
  | nil => rfl
  | cons x l ih => rw [List.foldl_cons, ih, h]

/-! The outgoing side. -/

@[simp] theorem charter_give : (s.give p).charter = s.charter := by unfold State.give; split <;> rfl

@[simp] theorem charter_enqueue (item : Item) : (s.enqueue p item).charter = s.charter := by simp [State.enqueue]

@[simp] theorem charter_compose (e : StoreIx) (x : StoreEntry) : (s.compose p e x).charter = s.charter := by
  simp [State.compose]

@[simp] theorem charter_refuse (e : StoreIx) (reason : Reason) (kind tag : Byte) :
    (s.refuse p e reason kind tag).charter = s.charter := charter_compose _ _ _ _

@[simp] theorem charter_mreply (e : StoreIx) (tag op : Byte) (st : MgmtStatus) (reply : List Byte) :
    (s.mreply p e tag op st reply).charter = s.charter := charter_compose _ _ _ _

@[simp] theorem charter_badarg (e : StoreIx) (tag op : Byte) : (s.badarg p e tag op).charter = s.charter :=
  charter_mreply _ _ _ _ _ _ _

@[simp] theorem charter_canreply (e : StoreIx) (tag : Byte) (o : CancelOutcome) (named : Byte) :
    (s.canreply p e tag o named).charter = s.charter := charter_compose _ _ _ _

/-- A message that passes the gate, or is discarded there, leaves the charter when its handler does (R163). -/
theorem charter_gate {kind : ShortKind} {k : StoreIx → State → State} (h : ∀ e s, (k e s).charter = s.charter) :
    (s.gate p kind k).charter = s.charter := by
  unfold State.gate
  split
  · rw [h, charter_setPort]
  · rfl

@[simp] theorem charter_gatedRefuse (reason : Reason) (kind tag : Byte) :
    (s.gatedRefuse p reason kind tag).charter = s.charter := charter_gate _ _ fun e s => charter_refuse s p e _ _ _

@[simp] theorem charter_notice (kind : NoticeKind) (arg : Byte) : (s.notice p kind arg).charter = s.charter := by
  unfold State.notice; dsimp only; split <;> simp

@[simp] theorem charter_noticeIf (kind : NoticeKind) (arg : Byte) : (s.noticeIf p kind arg).charter = s.charter := by
  unfold State.noticeIf; split <;> simp

@[simp] theorem charter_noticeTo (ps : List PortId) (kind : NoticeKind) (arg : Byte) :
    (s.noticeTo ps kind arg).charter = s.charter := charter_foldl (fun s p => charter_noticeIf s p kind arg) ps s

/-! The slot pool. -/

@[simp] theorem charter_answer (res : Result) : (s.answer i res).charter = s.charter := by simp [State.answer]

@[simp] theorem charter_unlist : (s.unlist i).charter = s.charter := charter_setSeg _ _ _

@[simp] theorem charter_withdraw (st : Status) : (s.withdraw i st).charter = s.charter := by simp [State.withdraw]

@[simp] theorem charter_rejoin : (s.rejoin i).charter = s.charter := charter_setSeg _ _ _

@[simp] theorem charter_purge (t : TargetId) : (s.purge t).charter = s.charter :=
  charter_foldl (fun s i => charter_withdraw s i .retired) _ _

@[simp] theorem charter_failList : (s.failList g).charter = s.charter :=
  charter_foldl (fun s i => charter_withdraw s i .segfault) _ _

@[simp] theorem charter_goBack (st : RequestState) (timer : Option Nat) : (s.goBack i st timer).charter = s.charter := by
  unfold State.goBack; split <;> simp

@[simp] theorem charter_afterAddressNack (f : Failure) (n : Nat) : (s.afterAddressNack i f n).charter = s.charter := by
  unfold State.afterAddressNack; dsimp only; split <;> simp

@[simp] theorem charter_afterLoss (f : Failure) (n : Nat) : (s.afterLoss i f n).charter = s.charter := by
  unfold State.afterLoss; dsimp only; split <;> simp

@[simp] theorem charter_afterFailure (f : Failure) (n : Nat) : (s.afterFailure i f n).charter = s.charter := by
  unfold State.afterFailure; split <;> simp

@[simp] theorem charter_settle (f : Option Failure) : (s.settle a f).charter = s.charter := by
  unfold State.settle
  split
  · simp
  · split <;> simp

@[simp] theorem charter_choose : (s.choose g i).charter = s.charter := by
  unfold State.choose
  dsimp only
  rw [charter_modSeg, charter_modSlot]
  exact charter_foldl (fun _ _ => charter_modSlot _ _ _) _ _

@[simp] theorem charter_expireLifetime : (s.expireLifetime i).charter = s.charter := by
  unfold State.expireLifetime; dsimp only; split <;> simp

@[simp] theorem charter_fillSlot (tag : Byte) (x : Admission) : (s.fillSlot p tag x).charter = s.charter := by
  unfold State.fillSlot
  exact charter_setSeg _ _ _

@[simp] theorem charter_takeTxn (tag : Byte) (body : List Byte) : (s.takeTxn p tag body).charter = s.charter := by
  unfold State.takeTxn; split <;> simp

@[simp] theorem charter_cancelNamed (e : StoreIx) (tag named : Byte) :
    (s.cancelNamed p e tag named).charter = s.charter := by
  unfold State.cancelNamed
  split
  · simp
  · split <;> simp

@[simp] theorem charter_takeCancel (tag : Byte) (body : List Byte) : (s.takeCancel p tag body).charter = s.charter := by
  refine charter_gate _ _ fun e s => ?_
  split <;> simp

/-! Segments. -/

@[simp] theorem charter_answerRecovery (st : MgmtStatus) : (s.answerRecovery g st).charter = s.charter := by
  unfold State.answerRecovery
  split
  · rfl
  · dsimp only; split <;> simp

@[simp] theorem charter_enterIdle : (s.enterIdle g).charter = s.charter := by
  unfold State.enterIdle; dsimp only; split <;> simp

@[simp] theorem charter_enterFault : (s.enterFault g).charter = s.charter := by simp [State.enterFault]

@[simp] theorem charter_pulseOrFault (scl : Bool) : (s.pulseOrFault g scl).charter = s.charter := by
  unfold State.pulseOrFault; split <;> simp

@[simp] theorem charter_endAttempt (first : Option Failure) (second : Option FailKind) (b c : Bool) :
    (s.endAttempt g a first second b c).charter = s.charter := by simp [State.endAttempt]

@[simp] theorem charter_endFollowing : (s.endFollowing g a).charter = s.charter := charter_endAttempt _ _ _ _ _ _ _

@[simp] theorem charter_setAttempt : (s.setAttempt g a).charter = s.charter := charter_modSeg _ _ _

/-- A command that meets a running attempt leaves the charter when its effect does. -/
theorem charter_inRun {f : Attempt → State} (h : ∀ a, (f a).charter = s.charter) :
    (s.inRun g f).charter = s.charter := by
  unfold State.inRun; split <;> simp [h]

@[simp] theorem charter_meetStart : (s.meetStart g).charter = s.charter := by
  unfold State.meetStart
  split
  · split <;> simp [State.lossInStart]
  · rfl

@[simp] theorem charter_meetCondition : (s.meetCondition g).charter = s.charter := by
  unfold State.meetCondition
  split
  · split <;> simp
  · rfl

@[simp] theorem charter_meetRestart : (s.meetRestart g).charter = s.charter :=
  charter_inRun _ _ fun a => by split <;> simp

@[simp] theorem charter_meetClockLow (fell : Bool) : (s.meetClockLow g fell).charter = s.charter :=
  charter_inRun _ _ fun _ => charter_setAttempt _ _ _

@[simp] theorem charter_openAttempt : (s.openAttempt g a).charter = s.charter := by simp [State.openAttempt]

@[simp] theorem charter_loseArbitration (how : LossCause) : (s.loseArbitration g a how).charter = s.charter := by
  unfold State.loseArbitration
  split
  · simp
  · split <;> simp

@[simp] theorem charter_completeStop (b : Bool) : (s.completeStop g a b).charter = s.charter := by
  simp [State.completeStop]

@[simp] theorem charter_stretchOut : (s.stretchOut g a).charter = s.charter := by
  unfold State.stretchOut; split <;> simp

@[simp] theorem charter_abort : (s.abort g a).charter = s.charter := by
  unfold State.abort; split <;> simp

@[simp] theorem charter_resetRun : (s.resetRun g a).charter = s.charter := by
  unfold State.resetRun
  split
  · simp
  · split <;> simp

/-! The line of a port. -/

@[simp] theorem charter_endBreak : (s.endBreak p).charter = s.charter := by simp [State.endBreak]

@[simp] theorem charter_endBreakIfMark : (s.endBreakIfMark p).charter = s.charter := by
  unfold State.endBreakIfMark; split <;> simp

@[simp] theorem charter_switchNow (f : LineFormat) : (s.switchNow p f).charter = s.charter := by
  unfold State.switchNow; split <;> simp

@[simp] theorem charter_restartSlot : (s.restartSlot p i).charter = s.charter := by
  unfold State.restartSlot
  split
  · split <;> simp
  · rfl

@[simp] theorem charter_dropRecovery : (s.dropRecovery p g).charter = s.charter := by
  unfold State.dropRecovery
  split
  · split <;> simp
  · rfl

@[simp] theorem charter_portRestart : (s.portRestart p).charter = s.charter := by
  simp only [State.portRestart, charter_endBreakIfMark, charter_dropRecovery]
  exact charter_foldl (fun s i => charter_restartSlot s p i) _ _

@[simp] theorem charter_releaseItem (item : Item) : (s.releaseItem p item).charter = s.charter := by
  cases item <;> rfl

@[simp] theorem charter_switchAt (item : Item) : (s.switchAt p item).charter = s.charter := by
  unfold State.switchAt
  split
  · split <;> simp
  · rfl

@[simp] theorem charter_setFormat (e : StoreIx) (f : LineFormat) : (s.setFormat p q e f).charter = s.charter := by
  unfold State.setFormat
  split
  · rfl
  · split
    · simp
    · split <;> simp

/-! Management operations that touch neither the map nor the managers. -/

variable (e : StoreIx) (tag : Byte) (args : List Byte)

@[simp] theorem charter_mapRead : (s.mapRead p e tag args).charter = s.charter := by
  unfold State.mapRead
  split
  · split <;> simp
  · simp

@[simp] theorem charter_portRead : (s.portRead p e tag args).charter = s.charter := by
  unfold State.portRead
  split
  · split <;> simp
  · simp

@[simp] theorem charter_segSet : (s.segSet p e tag args).charter = s.charter := by
  unfold State.segSet
  split
  · split
    · split <;> simp
    · simp
  · simp

@[simp] theorem charter_setHeld (op : Byte) (b : Bool) : (s.setHeld p e tag op g b).charter = s.charter := by
  unfold State.setHeld; split <;> simp

@[simp] theorem charter_segHold : (s.segHold p e tag args).charter = s.charter := by
  unfold State.segHold
  split
  · split <;> simp
  · simp

@[simp] theorem charter_segRelease : (s.segRelease p e tag args).charter = s.charter := by
  unfold State.segRelease
  split
  · split <;> simp
  · simp

@[simp] theorem charter_startRecovery : (s.startRecovery p e tag g).charter = s.charter := by
  simp [State.startRecovery]

@[simp] theorem charter_segRecover : (s.segRecover p e tag args).charter = s.charter := by
  unfold State.segRecover
  split
  · split
    · split <;> simp
    · simp
  · simp

@[simp] theorem charter_segReset : (s.segReset p e tag args).charter = s.charter := by
  unfold State.segReset
  split
  · split
    · split <;> simp
    · simp
  · simp

@[simp] theorem charter_clearCounters (x : Selector) : (s.clearCounters x).charter = s.charter := by
  cases x <;> simp [State.clearCounters]

@[simp] theorem charter_statusRead : (s.statusRead p e tag args).charter = s.charter := by
  unfold State.statusRead
  split
  · split
    · rw [charter_mreply]; split <;> simp
    · simp
  · simp

@[simp] theorem charter_restartOp : (s.restartOp p e tag args).charter = s.charter := by
  unfold State.restartOp; split <;> simp

end

/-! ## How management changes the charter -/

/-- How an operation of code `op` that a message on port `p` carries can change the charter: not at all, by one map entry
that is invalid or in range, or by one port's privilege, which is not taken from the last manager; and only for a
manager (R147, R171, R172, R175, R177). -/
inductive CharterChange (p : PortId) (op : Byte) (x : Charter) : Charter → Prop where
  | kept : CharterChange p op x x
  | map (t : TargetId) (m : MapEntry) (manager : hasPort x.managers p = true)
      (asked : op = opMapWrite ∨ op = opMapRetire) (legal : m.valid = true → m.inRange = true) :
      CharterChange p op x ⟨x.map.set t.val m t.isLt, x.managers⟩
  | managers (q : PortId) (member : Bool) (manager : hasPort x.managers p = true) (asked : op = opPortSet)
      (legal : member = false → x.managers ≠ onlyPort q) :
      CharterChange p op x ⟨x.map, withPort x.managers q member⟩

theorem CharterChange.of_eq {p : PortId} {op : Byte} {x y : Charter} (h : y = x) : CharterChange p op x y := h ▸ .kept

/-- An operation other than MAP_WRITE, MAP_RETIRE and PORT_SET changes nothing of the charter. -/
theorem CharterChange.eq_of_other {p : PortId} {op : Byte} {x y : Charter} (h : CharterChange p op x y)
    (hop : op ∉ [opMapWrite, opMapRetire, opPortSet]) : y = x := by
  cases h with
  | kept => rfl
  | map t m _ asked => rcases asked with rfl | rfl <;> simp at hop
  | managers q b _ asked => simp [asked] at hop

section
variable {s : State} {p : PortId} {e : StoreIx} {kind tag op : Byte} {args body : List Byte}

theorem charter_writeEntry (t : TargetId) (m : MapEntry) :
    (s.writeEntry p t m).charter = ⟨s.map.set t.val m t.isLt, s.managers⟩ := charter_noticeTo _ _ _ _

/-- A MAP_RETIRE leaves its entry invalid, and every other entry as it is (R16). -/
theorem charter_retireEntry (t : TargetId) (purge : Bool) :
    (s.retireEntry p t purge).charter =
      ⟨s.map.set t.val { s.mapEntry t with valid := false } t.isLt, s.managers⟩ := by
  have purged (s : State) : (if purge then s.purge t else s).charter = s.charter := by split <;> simp
  unfold State.retireEntry
  dsimp only
  split
  · rw [charter_noticeTo, purged]; rfl
  · rw [purged]; rfl

theorem charter_setProfile (q : PortId) (x : Profile) :
    (s.setProfile p q e x).charter = ⟨s.map, withPort s.managers q x.privilege⟩ := charter_setFormat _ _ _ _ _

theorem mapWrite_change (hm : hasPort s.managers p = true) :
    CharterChange p opMapWrite s.charter (s.mapWrite p e tag args).charter := by
  unfold State.mapWrite
  split
  · split
    · next t x _ hx =>
      rw [charter_mreply, charter_writeEntry]
      exact .map t x hm (.inl rfl) fun _ => (entryOfRecord_sound hx).2.2.1
    · exact .of_eq (by simp)
  · exact .of_eq (by simp)

theorem mapRetire_change (hm : hasPort s.managers p = true) :
    CharterChange p opMapRetire s.charter (s.mapRetire p e tag args).charter := by
  unfold State.mapRetire
  split
  · split
    · next t purge _ _ =>
      rw [charter_mreply, charter_retireEntry]
      exact .map t _ hm (.inr rfl) fun h => by cases h
    · exact .of_eq (by simp)
  · exact .of_eq (by simp)

theorem portSet_change (hm : hasPort s.managers p = true) :
    CharterChange p opPortSet s.charter (s.portSet p e tag args).charter := by
  unfold State.portSet
  split
  · split
    · next q x _ _ =>
      split
      · exact .of_eq (by simp)
      · next last =>
        split
        · exact .of_eq (by simp)
        · rw [charter_mreply, charter_setProfile]
          exact .managers q _ hm rfl fun hp ho => last ⟨hp, ho⟩
    · exact .of_eq (by simp)
  · exact .of_eq (by simp)

/-- What an operation asked for by a manager does to the charter (R147). -/
theorem mgmtOp_change (hm : hasPort s.managers p = true) :
    CharterChange p op s.charter (s.mgmtOp p e tag op args).charter := by
  by_cases hop : op ∈ [opMapWrite, opMapRetire, opPortSet]
  · simp only [List.mem_cons, List.not_mem_nil, or_false] at hop
    rcases hop with rfl | rfl | rfl
    · exact mapWrite_change hm
    · exact mapRetire_change hm
    · exact portSet_change hm
  · simp only [List.mem_cons, List.not_mem_nil, or_false, not_or] at hop
    obtain ⟨hw, hr, hs⟩ := hop
    refine .of_eq ?_
    simp only [State.mgmtOp, if_neg hw, if_neg hr, if_neg hs, apply_ite State.charter, charter_mapRead, charter_portRead,
      charter_segSet, charter_segHold, charter_segRelease, charter_segRecover, charter_segReset, charter_statusRead,
      charter_restartOp, charter_refuse, ite_self]

/-- A MGMT changes the charter only as its operation does, and only for a manager (R147). -/
theorem takeMgmt_change :
    (s.takeMgmt p tag body).charter = s.charter ∨
      ∃ op args, body = op :: args ∧ CharterChange p op s.charter (s.takeMgmt p tag body).charter := by
  cases body with
  | nil =>
    refine .inl (charter_gate _ _ fun e s => ?_)
    split <;> simp
  | cons op args =>
    refine .inr ⟨op, args, rfl, ?_⟩
    unfold State.takeMgmt State.gate
    split
    · next e v _ =>
      rw [← charter_setPort s p (v.setEntry e (some (StoreEntry.reserve .mreply)))]
      dsimp only
      split
      · exact .of_eq (by simp)
      · next hm => exact mgmtOp_change (by simpa using hm)
    · exact .of_eq (by simp)

/-- How a message of this kind and body, handed on at port `p`, can change the charter: only as a MGMT (R144). -/
def MessageChange (p : PortId) (kind : Byte) (body : List Byte) (x y : Charter) : Prop :=
  y = x ∨ kindVersion kind = 1 ∧ kindCode kind = 3 ∧ ∃ op args, body = op :: args ∧ CharterChange p op x y

theorem takeMessage_change : MessageChange p kind body s.charter (s.takeMessage p kind tag body).charter := by
  unfold State.takeMessage
  dsimp only
  split
  · exact .inl (by simp)
  · next hv =>
    split
    · exact .inl (by simp)
    · split
      · exact .inl (by simp)
      · split
        · next hk =>
          rw [← charter_modPort s p]
          exact takeMgmt_change.imp_right fun h => ⟨not_not.mp hv, hk, h⟩
        · exact .inl (by simp)

theorem judgeFrame_change {crc : BitVec 16} :
    MessageChange p kind body s.charter (s.judgeFrame p kind tag body crc).charter := by
  unfold State.judgeFrame
  dsimp only
  split
  · rw [← charter_modPort s p]
    exact takeMessage_change
  · exact .inl (by simp)

theorem completeMessage_change : MessageChange p kind body s.charter (s.completeMessage p kind tag body).charter := by
  unfold State.completeMessage State.completeFrame
  split
  · rw [← charter_modPort s p]
    exact judgeFrame_change
  · exact .inl rfl

/-- A frame whose CRC does not match is not handed on (R139). -/
theorem charter_completeFrame_badCrc {crc : BitVec 16} (h : crcOf (covered kind tag body) ≠ crc) :
    (s.completeFrame p kind tag body crc).charter = s.charter := by
  unfold State.completeFrame
  split
  · rw [State.judgeFrame, if_neg h, charter_modPort, charter_modPort, charter_modPort]
  · rfl

/-- A message that is no MGMT leaves the charter. -/
theorem charter_completeMessage (h : ¬(kindVersion kind = 1 ∧ kindCode kind = 3)) :
    (s.completeMessage p kind tag body).charter = s.charter :=
  completeMessage_change.elim id fun ⟨hv, hk, _⟩ => absurd ⟨hv, hk⟩ h

/-- The frame of a management operation changes the charter as the operation does. -/
theorem completeOp_change :
    CharterChange p op s.charter (s.completeMessage p kindMgmt tag (op :: args)).charter := by
  rcases completeMessage_change (s := s) (p := p) (kind := kindMgmt) (tag := tag) (body := op :: args) with
    h | ⟨_, _, _, _, hb, h⟩
  · exact .of_eq h
  · cases hb; exact h

/-- A MGMT that names no operation leaves the charter (R147). -/
theorem charter_completeBadop (h : mgmtNamed body = false) :
    (s.completeMessage p kindMgmt tag body).charter = s.charter := by
  rcases completeMessage_change (s := s) (p := p) (kind := kindMgmt) (tag := tag) (body := body) with
    h' | ⟨_, _, op, args, rfl, hc⟩
  · exact h'
  · refine hc.eq_of_other fun hop => ?_
    simp only [List.mem_cons, List.not_mem_nil, or_false] at hop
    rcases hop with rfl | rfl | rfl <;> simp [mgmtNamed, mgmtOps] at h

/-- A frame taken from a buffer changes the charter as some operation does (R138, R139). -/
theorem judgeBuffer_change (buffer : List Byte) :
    ∃ op, CharterChange p op s.charter (s.judgeBuffer p buffer).charter := by
  unfold State.judgeBuffer
  split
  · split
    · rcases judgeFrame_change with h | ⟨_, _, op, _, _, h⟩
      · exact ⟨0, .of_eq h⟩
      · exact ⟨op, h⟩
    · exact ⟨0, .kept⟩
  · exact ⟨0, .kept⟩

theorem receiveByte_change (b : Byte) : ∃ op, CharterChange p op s.charter (s.receiveByte p b).charter := by
  unfold State.receiveByte
  dsimp only
  split
  · exact ⟨0, .of_eq (by simp)⟩
  · split
    · exact judgeBuffer_change _
    · exact ⟨0, .of_eq (by simp)⟩

/-- A character changes the charter only as an operation whose frame it completes (R137 to R139). -/
theorem endCharacter_change (c : RxChar) : ∃ op, CharterChange p op s.charter (s.endCharacter p c).charter := by
  unfold State.endCharacter
  dsimp only
  split
  · next b _ =>
    rw [← charter_modPort s p Port.goodEnd]
    unfold State.assembleByte
    split
    · exact ⟨0, .of_eq (by split <;> simp)⟩
    · exact receiveByte_change b
    · exact ⟨0, .kept⟩
  · exact ⟨0, .of_eq (by simp)⟩
  · exact ⟨0, .of_eq (by split <;> simp)⟩

end

/-! ## What each command does to the charter -/

/-- A command that carries an operation of code `op` on port `p`, or one that may complete the frame of any. -/
inductive Carries : Instr → PortId → Byte → Prop where
  | character (p : PortId) (ch : RxChar) (op : Byte) : Carries (.characterReceived p ch) p op
  | mapWrite (p : PortId) (tag : Byte) (args : List Byte) : Carries (.mapWrite p tag args) p opMapWrite
  | mapRetire (p : PortId) (tag : Byte) (args : List Byte) : Carries (.mapRetire p tag args) p opMapRetire
  | portSet (p : PortId) (tag : Byte) (args : List Byte) : Carries (.portSet p tag args) p opPortSet

/-- A command that resets the part: a device reset, its end, or the completion of the reply to a RESTART (R5, R190). -/
def Resets (c : Instr) (s : State) : Prop :=
  c = .deviceReset ∨ (∃ a b, c = .deviceResetEnd a b) ∨
    ∃ p e x rest, c = .messageTransmitted p ∧ (s.port p).queue = .entry e :: rest ∧ (s.port p).store[e] = some x ∧
      x.restartReply = true

/-- What a command can do to the charter: nothing, a reset, or what the operation it carries does. -/
inductive CommandChange (c : Instr) (s t : State) : Prop where
  | kept (same : t.charter = s.charter)
  | reset (cause : Resets c s) (values : t.charter = State.reset.charter)
  | managed (p : PortId) (op : Byte) (carries : Carries c p op) (change : CharterChange p op s.charter t.charter)

section
variable {c : Instr} {s t : State} {p : PortId}

/-- A command acts only while RESETN is high. -/
theorem running_next {f : State → State} (h : s.running f = .next t) : t = s ∨ t = f s := by
  unfold State.running at h
  split at h <;> cases h
  · exact .inr rfl
  · exact .inl rfl

theorem kept_of_running {f : State → State} (h : s.running f = .next t) (hf : (f s).charter = s.charter) :
    CommandChange c s t := by
  rcases running_next h with rfl | rfl
  · exact .kept rfl
  · exact .kept hf

theorem managed_of_running {f : State → State} {op : Byte} (h : s.running f = .next t) (carries : Carries c p op)
    (hf : CharterChange p op s.charter (f s).charter) : CommandChange c s t := by
  rcases running_next h with rfl | rfl
  · exact .kept rfl
  · exact .managed p op carries hf

/-- The frame of an operation that is neither MAP_WRITE, MAP_RETIRE nor PORT_SET leaves the charter. -/
theorem charter_completeOther {op tag : Byte} {args : List Byte} (hop : op ∉ [opMapWrite, opMapRetire, opPortSet]) :
    (s.completeMessage p kindMgmt tag (op :: args)).charter = s.charter := completeOp_change.eq_of_other hop

/-- A command of an attempt's end: the stop completes, or there is no such event. -/
theorem charter_stopped {g : SegId} {kind : Option FailKind} {b : Bool} :
    (s.inRun g fun a => if a.stopsWith kind then s.completeStop g a b else s).charter = s.charter :=
  charter_inRun _ _ fun a => by split <;> simp

theorem charter_generalRestart : s.generalRestart.charter = State.reset.charter := rfl

theorem complete_change {item : Item} {rest : List Item} (hq : (s.port p).queue = item :: rest) :
    CommandChange (.messageTransmitted p) s (s.complete p item rest) := by
  unfold State.complete
  dsimp only
  split
  · next hr =>
    cases item with
    | result i => cases hr
    | entry e =>
      cases hx : (s.port p).store[e] with
      | none => simp [Port.isRestartReply, hx] at hr
      | some x =>
        refine .reset (.inr (.inr ⟨p, e, x, rest, rfl, hq, hx, ?_⟩)) charter_generalRestart
        simpa [Port.isRestartReply, hx] using hr
  · exact .kept (by simp)

theorem messageTransmitted_change (h : exec (.messageTransmitted p) s = .next t) :
    CommandChange (.messageTransmitted p) s t := by
  unfold exec execMessageTransmitted at h
  rcases running_next h with rfl | rfl
  · exact .kept rfl
  · split
    · next hq => exact complete_change hq
    · exact .kept rfl

theorem characterReceived_change {ch : RxChar} (h : exec (.characterReceived p ch) s = .next t) :
    CommandChange (.characterReceived p ch) s t := by
  unfold exec execCharacterReceived at h
  rcases running_next h with rfl | rfl
  · exact .kept rfl
  · split
    · obtain ⟨op, hc⟩ := endCharacter_change ch
      exact .managed p op (.character p ch op) hc
    · exact .kept rfl

/-- What a command of a segment's engine or monitor leaves. -/
theorem segment_change {g : SegId} (hg : segmentOf c = some g) (h : exec c s = .next t) : CommandChange c s t := by
  cases c with
  | choice g =>
    unfold exec execChoice at h
    refine kept_of_running h ?_
    split
    · split <;> simp
    · rfl
  | openingStart g =>
    unfold exec execOpeningStart at h
    exact kept_of_running h (charter_inRun _ _ fun a => by split <;> simp)
  | attemptEndsOk g =>
    unfold exec execAttemptEndsOk at h
    exact kept_of_running h charter_stopped
  | attemptEndsAddressNack g =>
    unfold exec execAttemptEndsAddressNack at h
    exact kept_of_running h charter_stopped
  | attemptEndsDataNack g =>
    unfold exec execAttemptEndsDataNack at h
    exact kept_of_running h charter_stopped
  | attemptEndsAborted g =>
    unfold exec execAttemptEndsAborted at h
    exact kept_of_running h charter_stopped
  | attemptEndsArbitrationLost g =>
    unfold exec execAttemptEndsArbitrationLost at h
    exact kept_of_running h (charter_inRun _ _ fun a => by split <;> simp)
  | stretchTimeout g =>
    unfold exec execStretchTimeout at h
    exact kept_of_running h (charter_inRun _ _ fun a => by split <;> simp)
  | acknowledgeBitRead g data ninth =>
    unfold exec execAcknowledgeBitRead at h
    exact kept_of_running h (charter_inRun _ _ fun a => by split <;> simp)
  | arbitrationLost g how =>
    unfold exec execArbitrationLost at h
    exact kept_of_running h (charter_inRun _ _ fun a => by dsimp only; split <;> simp)
  | monitorStartSeen g =>
    unfold exec execMonitorStartSeen at h
    exact kept_of_running h (by simp)
  | monitorStopSeen g =>
    unfold exec execMonitorStopSeen at h
    exact kept_of_running h (by split <;> simp)
  | lineLow g l =>
    unfold exec execLineLow at h
    refine kept_of_running h ?_
    split
    · rfl
    · dsimp only; split <;> simp
  | bothLinesHigh g =>
    unfold exec execBothLinesHigh at h
    exact kept_of_running h (charter_modSeg _ _ _)
  | busFreeTimerExpiry g =>
    unfold exec execBusFreeTimerExpiry at h
    exact kept_of_running h (by split <;> simp)
  | busyLongTimerExpiry g =>
    unfold exec execBusyLongTimerExpiry at h
    refine kept_of_running h ?_
    split
    · dsimp only; split <;> simp
    · rfl
  | quietTimerExpiry g =>
    unfold exec execQuietTimerExpiry at h
    refine kept_of_running h ?_
    split
    · split <;> simp
    · rfl
  | dataHeldTimerExpiry g =>
    unfold exec execDataHeldTimerExpiry at h
    exact kept_of_running h (by split <;> simp)
  | clockHeldTimerExpiry g =>
    unfold exec execClockHeldTimerExpiry at h
    exact kept_of_running h (by split <;> simp)
  | closingStopComplete g =>
    unfold exec execClosingStopComplete at h
    exact kept_of_running h (by split <;> simp)
  | closingStopFails g how =>
    unfold exec execClosingStopFails at h
    refine kept_of_running h ?_
    split
    · cases how <;> simp
    · rfl
  | releasePulse g data =>
    unfold exec execReleasePulse at h
    refine kept_of_running h ?_
    split
    · dsimp only; split <;> simp
    · rfl
  | recoveryClockHeld g =>
    unfold exec execRecoveryClockHeld at h
    exact kept_of_running h (by split <;> simp)
  | recoveryStopComplete g how =>
    unfold exec execRecoveryStopComplete at h
    refine kept_of_running h ?_
    split
    · cases how <;> simp
    · rfl
  | _ => cases hg

/-- What each command can do to the map and the managers. -/
theorem exec_change (h : exec c s = .next t) : CommandChange c s t := by
  cases c with
  | deviceReset => cases h; exact .reset (.inl rfl) rfl
  | deviceResetEnd a b =>
    change execDeviceResetEnd a b s = _ at h
    unfold execDeviceResetEnd at h
    split at h <;> cases h
    · exact .kept rfl
    · exact .reset (.inr (.inl ⟨a, b, rfl⟩)) rfl
  | characterReceived p ch => exact characterReceived_change h
  | messageTransmitted p => exact messageTransmitted_change h
  | mapWrite p tag args =>
    unfold exec execMapWrite at h
    exact managed_of_running h (.mapWrite p tag args) completeOp_change
  | mapRetire p tag args =>
    unfold exec execMapRetire at h
    exact managed_of_running h (.mapRetire p tag args) completeOp_change
  | portSet p tag args =>
    unfold exec execPortSet at h
    exact managed_of_running h (.portSet p tag args) completeOp_change
  | mapRead p tag args =>
    unfold exec execMapRead at h
    exact kept_of_running h (charter_completeOther (by decide))
  | portRead p tag args =>
    unfold exec execPortRead at h
    exact kept_of_running h (charter_completeOther (by decide))
  | segSet p tag args =>
    unfold exec execSegSet at h
    exact kept_of_running h (charter_completeOther (by decide))
  | segHold p tag args =>
    unfold exec execSegHold at h
    exact kept_of_running h (charter_completeOther (by decide))
  | segRelease p tag args =>
    unfold exec execSegRelease at h
    exact kept_of_running h (charter_completeOther (by decide))
  | segRecover p tag args =>
    unfold exec execSegRecover at h
    exact kept_of_running h (charter_completeOther (by decide))
  | segReset p tag args =>
    unfold exec execSegReset at h
    exact kept_of_running h (charter_completeOther (by decide))
  | statusRead p tag args =>
    unfold exec execStatusRead at h
    exact kept_of_running h (charter_completeOther (by decide))
  | restart p tag args =>
    unfold exec execRestart at h
    exact kept_of_running h (charter_completeOther (by decide))
  | txn p tag body =>
    unfold exec execTxn at h
    exact kept_of_running h (charter_completeMessage (by decide))
  | cancel p tag body =>
    unfold exec execCancel at h
    exact kept_of_running h (charter_completeMessage (by decide))
  | mgmtBadop p tag body =>
    unfold exec execMgmtBadop at h
    refine kept_of_running h ?_
    split
    · rfl
    · next hb => exact charter_completeBadop (by simpa using hb)
  | badverBadkindMessage p kind tag body =>
    unfold exec execBadverBadkindMessage at h
    refine kept_of_running h ?_
    split
    · rfl
    · next hk => exact charter_completeMessage fun ⟨hv, hc⟩ => hk (by simp [kindAccepted, hv, hc])
  | crcError p kind tag body crc =>
    unfold exec execCrcError at h
    refine kept_of_running h ?_
    split
    · rfl
    · next hc => exact charter_completeFrame_badCrc hc
  | breakWatchEndsAtMark p =>
    unfold exec execBreakWatchEndsAtMark at h
    refine kept_of_running h ?_
    split <;> simp
  | gapTimerExpiry p =>
    unfold exec execGapTimerExpiry at h
    exact kept_of_running h (by split <;> simp)
  | breakRecognized p =>
    unfold exec execBreak at h
    exact kept_of_running h (by split <;> simp)
  | breakEnd p =>
    unfold exec execBreakEnd at h
    exact kept_of_running h (by split <;> simp)
  | startBit p stands =>
    unfold exec execStartBit at h
    exact kept_of_running h (by split <;> simp)
  | transmitterHeld p =>
    unfold exec execTransmitterHeld at h
    exact kept_of_running h (by split <;> simp)
  | retryTimerExpiry i =>
    unfold exec execRetryTimerExpiry at h
    exact kept_of_running h (by split <;> simp)
  | lifetimeExpiry i =>
    unfold exec execLifetimeExpiry at h
    exact kept_of_running h (by split <;> simp)
  | _ => exact segment_change rfl h

end

/-! ## The two statements -/

/-- Settles O60: a command that changes the charter resets the part, or carries an operation for a manager. -/
theorem onlyManagersChangeMapAndManagers : Obligations.OnlyManagersChangeMapAndManagers := by
  intro c s t h restarts byCharacter
  have change := exec_change h
  have map_eq : t.charter = s.charter → t.map = s.map := congrArg Charter.map
  have managers_eq : t.charter = s.charter → t.managers = s.managers := congrArg Charter.managers
  cases change with
  | kept same => exact ⟨fun ht => absurd (map_eq same) ht, fun ht => absurd (managers_eq same) ht⟩
  | reset cause => exact ⟨fun _ => .inl cause, fun _ => .inl cause⟩
  | managed p op carries change =>
    generalize hy : t.charter = y at change
    cases change with
    | kept => exact ⟨fun ht => absurd (map_eq hy) ht, fun ht => absurd (managers_eq hy) ht⟩
    | map u m manager asked =>
      refine ⟨fun _ => .inr ?_, fun ht => absurd (congrArg Charter.managers hy) ht⟩
      cases carries with
      | character _ ch => exact .inl ⟨p, ch, rfl, manager⟩
      | mapWrite _ tag args => exact .inr ⟨p, tag, args, manager, .inl rfl⟩
      | mapRetire _ tag args => exact .inr ⟨p, tag, args, manager, .inr rfl⟩
      | portSet => exact absurd asked (by decide)
    | managers q b manager asked =>
      refine ⟨fun ht => absurd (congrArg Charter.map hy) ht, fun _ => .inr ?_⟩
      cases carries with
      | character _ ch => exact .inl ⟨p, ch, rfl, manager⟩
      | mapWrite => exact absurd asked (by decide)
      | mapRetire => exact absurd asked (by decide)
      | portSet _ tag args => exact .inr ⟨p, tag, args, manager, rfl⟩

/-- Taking the privilege from one port leaves a manager, unless that port was the last one (R172). -/
theorem managed_withPort : ∀ (ps : PortSet) (q : PortId) (member : Bool), (∃ p, hasPort ps p = true) →
    (member = false → ps ≠ onlyPort q) → ∃ p, hasPort (withPort ps q member) p = true := by
  decide

/-- A map whose entry is replaced by one that is invalid or in range stays in range. -/
theorem MapFits.of_set {s t : State} {u : TargetId} {m : MapEntry} (hs : s.MapFits)
    (hm : m.valid = true → m.inRange = true) (h : t.map = s.map.set u.val m u.isLt) : t.MapFits := by
  have ht w : t.mapEntry w = (s.setMapEntry u m).mapEntry w := by simp only [State.mapEntry, State.setMapEntry, h]
  intro w hw
  rw [ht] at hw ⊢
  by_cases e : w = u
  · rw [e, mapEntry_setMapEntry] at hw ⊢; exact hm hw
  · rw [mapEntry_setMapEntry_ne _ _ e] at hw ⊢; exact hs w hw

theorem MapFits.of_map_eq {s t : State} (hs : s.MapFits) (h : t.map = s.map) : t.MapFits := by
  intro w; rw [State.mapEntry, h]; exact hs w

/-- Every command keeps the map in range and some port a manager (R4, R171). -/
theorem exec_keeps_charter_legal {c : Instr} {s t : State} (h : exec c s = .next t) :
    (s.MapFits → t.MapFits) ∧ (s.Managed → t.Managed) := by
  have managed_of_eq (hm : t.managers = s.managers) : s.Managed → t.Managed := by
    unfold State.Managed; rw [hm]; exact id
  have kept (hc : t.charter = s.charter) : (s.MapFits → t.MapFits) ∧ (s.Managed → t.Managed) :=
    ⟨fun hs => MapFits.of_map_eq hs (congrArg Charter.map hc), managed_of_eq (congrArg Charter.managers hc)⟩
  cases exec_change h with
  | kept same => exact kept same
  | reset cause values =>
    refine ⟨fun _ => MapFits.of_map_eq resetIsLegal.map (congrArg Charter.map values), fun _ => ⟨0, ?_⟩⟩
    rw [show t.managers = 1#4 from congrArg Charter.managers values]
    decide
  | managed p op carries change =>
    generalize hy : t.charter = y at change
    cases change with
    | kept => exact kept hy
    | map u m manager asked legal =>
      exact ⟨fun hs => MapFits.of_set hs legal (congrArg Charter.map hy), managed_of_eq (congrArg Charter.managers hy)⟩
    | managers q member manager asked legal =>
      refine ⟨fun hs => MapFits.of_map_eq hs (congrArg Charter.map hy), fun hs => ?_⟩
      unfold State.Managed
      rw [show t.managers = _ from congrArg Charter.managers hy]
      exact managed_withPort _ _ _ hs legal

/-- Settles O54: an empty queue idles, and every command keeps both. -/
theorem mapAndManagersStayLegal : Obligations.MapAndManagersStayLegal := by
  intro s t h
  unfold step at h
  split at h
  · cases h; exact ⟨id, id⟩
  · next c rest _ => exact exec_keeps_charter_legal (s := { s with pending := rest }) h

end Sys2Proof.Machine
end

section
/-! SUPPORT. MAP_WRITE and MAP_RETIRE without purge: the reply, and the notices to the other ports (R15, R16, R18, R175,
R177). -/
namespace Sys2Proof.Machine

/-! ## States with every port or every slot replaced -/

section
variable (s : State) (f : PortId → Port) (h : SlotId → Slot)

@[simp] theorem port_withPorts (q : PortId) : (s.withPorts f).port q = f q := by
  simp [State.port, State.withPorts, -ports_get]

@[simp] theorem slot_withPorts (i : SlotId) : (s.withPorts f).slot i = s.slot i := rfl
@[simp] theorem seg_withPorts (g : SegId) : (s.withPorts f).seg g = s.seg g := by cases g <;> rfl
@[simp] theorem mapEntry_withPorts (t : TargetId) : (s.withPorts f).mapEntry t = s.mapEntry t := rfl
@[simp] theorem pending_withPorts : (s.withPorts f).pending = s.pending := rfl
@[simp] theorem resetn_withPorts : (s.withPorts f).resetn = s.resetn := rfl
@[simp] theorem map_withPorts : (s.withPorts f).map = s.map := rfl
@[simp] theorem managers_withPorts : (s.withPorts f).managers = s.managers := rfl
@[simp] theorem nextAdmission_withPorts : (s.withPorts f).nextAdmission = s.nextAdmission := rfl

@[simp] theorem slot_withSlots (i : SlotId) : (s.withSlots h).slot i = h i := by
  simp [State.slot, State.withSlots, -slots_get]

@[simp] theorem port_withSlots (q : PortId) : (s.withSlots h).port q = s.port q := by
  simp only [State.port, State.withSlots]

@[simp] theorem seg_withSlots (g : SegId) : (s.withSlots h).seg g = s.seg g := by
  cases g <;> simp only [State.seg, State.withSlots]

@[simp] theorem mapEntry_withSlots (t : TargetId) : (s.withSlots h).mapEntry t = s.mapEntry t := by
  simp only [State.mapEntry, State.withSlots]

@[simp] theorem pending_withSlots : (s.withSlots h).pending = s.pending := by simp only [State.withSlots]
@[simp] theorem resetn_withSlots : (s.withSlots h).resetn = s.resetn := by simp only [State.withSlots]
@[simp] theorem map_withSlots : (s.withSlots h).map = s.map := by simp only [State.withSlots]
@[simp] theorem managers_withSlots : (s.withSlots h).managers = s.managers := by simp only [State.withSlots]
@[simp] theorem nextAdmission_withSlots : (s.withSlots h).nextAdmission = s.nextAdmission := by simp only [State.withSlots]

theorem setPort_eq_withPorts (p : PortId) (v : Port) :
    s.setPort p v = s.withPorts fun q => if q = p then v else s.port q := by
  refine State.ext_blocks rfl rfl (fun _ => rfl) (fun _ => rfl) (fun _ => by simp) (fun q => ?_) rfl rfl rfl
  rw [port_setPort_eq, port_withPorts]

@[simp] theorem setMapEntry_mapEntry (t : TargetId) : s.setMapEntry t (s.mapEntry t) = s := by
  simp [State.setMapEntry, State.mapEntry, -map_get]

end

/-! ## A MGMT that reaches its operation -/

/-- The state in which an operation of the MGMT that arrived finds its reserved entry (R163). -/
def State.reserved (s : State) (p : PortId) (e : StoreIx) : State :=
  s.setPort p ((s.port p).heard.setEntry e (some (StoreEntry.reserve .mreply)))

section
variable {s : State} {p : PortId} {tag op : Byte} {args : List Byte} {e : StoreIx}

/-- A MGMT of a manager reaches its operation (R147). -/
theorem completeMgmt_of_manages (h : s.Manages p tag (op :: args) e) :
    s.completeMessage p kindMgmt tag (op :: args) = (s.reserved p e).mgmtOp p e tag op args := by
  have free : ((s.heard p).port p).freeEntry = some e := by
    rw [State.heard, port_setPort, heard_freeEntry, h.entry]
  rw [completeMgmt_eq h.arrives, State.takeMgmt, gate_of_free free, State.heard, port_setPort, setPort_setPort,
    managers_setPort, if_neg (by simp [h.manager])]
  rfl

theorem served_reserved (h : ∀ q, (s.port q).Served) (q : PortId) : ((s.reserved p e).port q).Served := by
  rw [State.reserved, port_setPort_eq]
  split
  · exact h p
  · exact h q

/-- What is sent in an entry leaves nothing of its reservation. -/
theorem Port.sends_setEntry (v : Port) (y : Option StoreEntry) (x : StoreEntry) :
    (v.setEntry e y).sends e x = v.sends e x := by
  unfold Port.sends Port.setEntry
  split <;> simp

theorem mreply_eq_sends {st : MgmtStatus} {reply : List Byte} (h : (s.port p).Served) :
    s.mreply p e tag op st reply = s.sends p e (mreplyEntry tag op st reply) := compose_eq_sends h

theorem mem_allPorts : ∀ q, q ∈ allPorts := by decide

theorem mem_otherPorts {q : PortId} : q ∈ otherPorts p ↔ q ≠ p := by
  simp [otherPorts, mem_allPorts]

theorem nodup_otherPorts (p : PortId) : (otherPorts p).Nodup := List.Nodup.filter _ (by decide)

/-- An operation that may notice the other ports, and replies at its own (R18, R165, R173). -/
theorem notices_mreply {kind : NoticeKind} {arg : Byte} {st : MgmtStatus} {reply : List Byte} (noticed : Bool)
    (h : ∀ q, (s.port q).Served) :
    (if noticed then s.noticeTo (otherPorts p) kind arg else s).mreply p e tag op st reply =
      s.withPorts fun q =>
        if q = p then (s.port p).sends e (mreplyEntry tag op st reply)
        else if noticed then (s.port q).noticedIf kind arg else s.port q := by
  cases noticed with
  | false => rw [if_neg (by decide), mreply_eq_sends (h p), State.sends, setPort_eq_withPorts]; rfl
  | true =>
    obtain ⟨hports, hrest⟩ := noticeTo_spec (kind := kind) (arg := arg) (otherPorts p) (nodup_otherPorts p) s h
    have own : (s.noticeTo (otherPorts p) kind arg).port p = s.port p := by simp [hports, mem_otherPorts]
    rw [if_pos rfl, mreply_eq_sends (by rw [own]; exact h p), State.sends, own, setPort_eq_withPorts, hrest]
    refine State.ext_blocks rfl rfl (fun _ => rfl) (fun _ => rfl) (fun g => by cases g <;> rfl) (fun q => ?_) rfl rfl rfl
    rw [← hrest, port_withPorts, port_withPorts]
    split
    · rfl
    · next hq => simp [hports, mem_otherPorts, hq]

/-! ## Map operations -/

theorem targetOf_of_val {ix : Byte} {u : TargetId} (h : u.val = ix.toNat) : targetOf ix = some u := by
  rw [targetOf, dif_pos (h ▸ u.isLt)]
  exact congrArg some (Fin.ext h.symm)

/-- The part that an operation on an entry leaves at the ports: its reply, and a notice for each other port (R18). -/
theorem reserved_notices_mreply {kind : NoticeKind} {arg : Byte} {st : MgmtStatus} {reply : List Byte} {u : TargetId}
    {x : MapEntry} (noticed : Bool) (h : ∀ q, (s.port q).Served) :
    (if noticed then ((s.reserved p e).setMapEntry u x).noticeTo (otherPorts p) kind arg
      else (s.reserved p e).setMapEntry u x).mreply p e tag op st reply =
    (s.withPorts fun q =>
        if q = p then (s.port p).heard.sends e (mreplyEntry tag op st reply)
        else if noticed then (s.port q).noticedIf kind arg else s.port q).setMapEntry u x := by
  rw [notices_mreply (s := (s.reserved p e).setMapEntry u x) noticed (served_reserved h)]
  refine State.ext_blocks rfl rfl (fun _ => rfl) (fun _ => rfl) (fun _ => by simp [State.reserved]) (fun q => ?_) rfl rfl rfl
  rw [port_withPorts, port_setMapEntry, port_setMapEntry, port_setMapEntry, port_withPorts, State.reserved, port_setPort,
    Port.sends_setEntry]
  split
  · rfl
  · next hq => rw [port_setPort_ne _ _ hq]

/-- Settles O24: the entry is replaced, then the notices, then the reply. -/
theorem mapWriteReplacesTheEntry : Obligations.MapWriteReplacesTheEntry := by
  intro p tag ix fields u x e s (h : s.Manages p tag (opMapWrite :: ix :: fields) e) served hu hx
  have written : (s.reserved p e).mgmtOp p e tag opMapWrite (ix :: fields) =
      ((s.reserved p e).writeEntry p u x).mreply p e tag opMapWrite .done [] := by
    show (s.reserved p e).mapWrite p e tag (ix :: fields) = _
    rw [State.mapWrite]
    simp only [targetOf_of_val hu, hx]
  show execMapWrite p tag (ix :: fields) s = _
  rw [execMapWrite, running_of h.arrives.running, completeMgmt_of_manages h, written, State.writeEntry, hu, byte_toNat]
  exact congrArg _ (reserved_notices_mreply true served)

/-- A MAP_RETIRE of a manager (R177): the entry made invalid with or without a purge, then the notices, then the reply. -/
theorem execMapRetire_eq {ix flags : Byte} {u : TargetId} {purge : Bool} (h : s.Manages p tag [opMapRetire, ix, flags] e)
    (hu : u.val = ix.toNat) (hf : flagOf flags = some purge) :
    exec (.mapRetire p tag [ix, flags]) s = .next (((s.reserved p e).retireEntry p u purge).mreply p e tag opMapRetire
      (if (s.reserved p e).retireEffective u purge then .done else .noeffect) []) := by
  show execMapRetire p tag [ix, flags] s = _
  rw [execMapRetire, running_of h.arrives.running, completeMgmt_of_manages h]
  show Host.Outcome.next ((s.reserved p e).mapRetire p e tag [ix, flags]) = _
  rw [State.mapRetire]
  simp only [targetOf_of_val hu, hf]

/-- Settles O26: a valid entry is made invalid and noticed, an invalid one is left. -/
theorem mapRetireInvalidatesTheEntry : Obligations.MapRetireInvalidatesTheEntry := by
  intro p tag ix u e s h served hu
  have effective : (s.reserved p e).retireEffective u false = (s.mapEntry u).valid := by
    rw [State.retireEffective, Bool.false_and, Bool.or_false, State.reserved, mapEntry_setPort]
  have retired : exec (.mapRetire p tag [ix, 0]) s = .next ((s.withPorts fun q =>
      if q = p then (s.port p).heard.sends e
        (mreplyEntry tag opMapRetire (if (s.mapEntry u).valid then .done else .noeffect) [])
      else if (s.mapEntry u).valid then (s.port q).noticedIf .mapChanged ix else s.port q).setMapEntry u
        { s.mapEntry u with valid := false }) := by
    rw [execMapRetire_eq h hu rfl, effective, State.retireEntry, hu, byte_toNat]
    exact congrArg _ (reserved_notices_mreply (s.mapEntry u).valid served)
  refine ⟨fun hv => ?_, fun hv => ?_⟩
  · simp only [hv, if_true] at retired
    exact retired
  · have same : ({ s.mapEntry u with valid := false } : MapEntry) = s.mapEntry u := by rw [← hv]
    rw [retired, same, hv]
    simp only [Bool.false_eq_true, if_false]
    rw [State.replied, State.sends, State.heard, port_setPort, setPort_setPort, setPort_eq_withPorts]
    exact congrArg _ (setMapEntry_mapEntry _ _)

end

end Sys2Proof.Machine
end

section
/-! SUPPORT. MAP_RETIRE with purge: the waiting requests of a target are answered RETIRED (R17, R53). -/
namespace Sys2Proof.Machine

/-! ## The RESULTs of several slots at one port -/

theorem Port.served_queuedAll {v : Port} (h : v.Served) (l : List SlotId) (f : SlotId → List Byte) :
    (v.queuedAll l f).Served := by
  induction l generalizing v with
  | nil => exact h
  | cons i l ih => exact ih (Port.served_queued v i (f i))

theorem Port.queued_setEntry (v : Port) (e : StoreIx) (x : Option StoreEntry) (i : SlotId) (f : List Byte) :
    (v.setEntry e x).queued i f = (v.queued i f).setEntry e x := by
  unfold Port.queued Port.setEntry
  split <;> rfl

theorem Port.queuedAll_setEntry (v : Port) (e : StoreIx) (x : Option StoreEntry) (l : List SlotId)
    (f : SlotId → List Byte) : (v.setEntry e x).queuedAll l f = (v.queuedAll l f).setEntry e x := by
  induction l generalizing v with
  | nil => rfl
  | cons i l ih =>
    show ((v.setEntry e x).queued i (f i)).queuedAll l f = ((v.queued i (f i)).queuedAll l f).setEntry e x
    rw [Port.queued_setEntry, ih]

theorem Port.queuedAll_congr (v : Port) {l : List SlotId} {f f' : SlotId → List Byte} (h : ∀ i ∈ l, f i = f' i) :
    v.queuedAll l f = v.queuedAll l f' := by
  induction l generalizing v with
  | nil => rfl
  | cons i l ih =>
    show (v.queued i (f i)).queuedAll l f = (v.queued i (f' i)).queuedAll l f'
    rw [h i List.mem_cons_self, ih _ fun j hj => h j (List.mem_cons_of_mem i hj)]

/-! ## Several waiting requests withdrawn -/

/-- What is left of the list of a segment when requests leave the lists of their own segments (R42). -/
def State.listWithout (s : State) (g : SegId) (l : List SlotId) : List SlotId :=
  (s.seg g).list.filter fun j => decide (¬(j ∈ l ∧ (s.slot j).snapshot.segment = g))

section
variable {s : State} {st : Status}

/-- A waiting request that is withdrawn (R36, R42): it leaves the list of its segment, is answered, and its RESULT joins
its owner's queue. -/
theorem withdraw_eq {i : SlotId} (h : (s.port (s.slot i).owner).Served) :
    s.withdraw i st = ((s.setSlot i ((s.slot i).answered (Result.ofScheduler st))).setPort (s.slot i).owner
      ((s.port (s.slot i).owner).queued i ((s.slot i).answered (Result.ofScheduler st)).resultFrame)).setSeg
        (s.slot i).snapshot.segment
        { s.seg (s.slot i).snapshot.segment with
          list := (s.seg (s.slot i).snapshot.segment).list.filter fun j => decide (j ≠ i) } := by
  unfold State.withdraw State.unlist
  rw [answer_eq (by simpa using h)]
  simp only [slot_setSeg, port_setSeg, setSeg_setPort, setSeg_setSlot]

theorem seg_withdraw {i : SlotId} (h : (s.port (s.slot i).owner).Served) (g : SegId) :
    (s.withdraw i st).seg g = { s.seg g with list := s.listWithout g [i] } := by
  rw [withdraw_eq h, seg_setSeg_eq]
  split
  · next hg =>
    subst hg
    have own : ((s.seg (s.slot i).snapshot.segment).list.filter fun j => decide (j ≠ i)) =
        s.listWithout (s.slot i).snapshot.segment [i] := by
      refine List.filter_congr fun j _ => decide_eq_decide.mpr ?_
      rw [List.mem_singleton]
      exact ⟨fun hj h => hj h.1, fun hn hj => hn ⟨hj, hj ▸ rfl⟩⟩
    rw [own]
  · next hg =>
    have all : s.listWithout g [i] = (s.seg g).list := by
      refine List.filter_eq_self.mpr fun j _ => decide_eq_true ?_
      rintro ⟨hj, hseg⟩
      rw [List.mem_singleton] at hj
      exact hg (hj ▸ hseg.symm)
    rw [all, seg_setPort, seg_setSlot]

theorem slot_withdraw {i : SlotId} (h : (s.port (s.slot i).owner).Served) (j : SlotId) :
    (s.withdraw i st).slot j = if j = i then (s.slot i).answered (Result.ofScheduler st) else s.slot j := by
  rw [withdraw_eq h, slot_setSeg, slot_setPort, slot_setSlot_eq]

theorem port_withdraw {i : SlotId} (h : (s.port (s.slot i).owner).Served) (q : PortId) :
    (s.withdraw i st).port q = if q = (s.slot i).owner then
      (s.port q).queued i ((s.slot i).answered (Result.ofScheduler st)).resultFrame else s.port q := by
  rw [withdraw_eq h, port_setSeg, port_setPort_eq]
  split
  · next hq => rw [hq]
  · rfl

/-- What several withdrawn requests leave, block by block (R36, R42, R53, R54). -/
structure Withdrawn (s : State) (st : Status) (l : List SlotId) (t : State) : Prop where
  slots : ∀ i, t.slot i = if i ∈ l then (s.slot i).answered (Result.ofScheduler st) else s.slot i
  ports : ∀ q, t.port q = (s.port q).queuedAll (l.filter fun i => decide ((s.slot i).owner = q))
    fun i => ((s.slot i).answered (Result.ofScheduler st)).resultFrame
  segs : ∀ g, t.seg g = { s.seg g with list := s.listWithout g l }
  rest : t = { s with slots := t.slots, ports := t.ports, segA := t.segA, segB := t.segB }

theorem withdrawn_nil : Withdrawn s st [] s where
  slots i := by simp
  ports q := rfl
  segs g := by simp [State.listWithout]
  rest := rfl

theorem withdrawn_cons {i : SlotId} {l : List SlotId} {t : State} (hi : i ∉ l) (hs : ∀ q, (s.port q).Served)
    (h : Withdrawn (s.withdraw i st) st l t) : Withdrawn s st (i :: l) t := by
  have slot := slot_withdraw (st := st) (hs (s.slot i).owner)
  have owner j : ((s.withdraw i st).slot j).owner = (s.slot j).owner := by
    rw [slot]; split
    · next e => rw [e]; rfl
    · rfl
  have segment j : ((s.withdraw i st).slot j).snapshot.segment = (s.slot j).snapshot.segment := by
    rw [slot]; split
    · next e => rw [e]; rfl
    · rfl
  have other {j : SlotId} (hj : j ∈ l) : (s.withdraw i st).slot j = s.slot j := by
    rw [slot]; exact if_neg fun e : j = i => hi (e ▸ hj)
  refine ⟨fun j => ?_, fun q => ?_, fun g => ?_, ?_⟩
  · rw [h.slots]
    by_cases hj : j ∈ l
    · rw [if_pos hj, if_pos (List.mem_cons_of_mem i hj), other hj]
    · rw [if_neg hj, slot]
      by_cases e : j = i
      · rw [if_pos e, if_pos (by rw [e]; exact List.mem_cons_self), e]
      · rw [if_neg e, if_neg fun hm => (List.mem_cons.mp hm).elim e hj]
  · rw [h.ports, port_withdraw (hs _)]
    simp only [owner]
    rw [Port.queuedAll_congr _ fun j hj => by rw [other (List.mem_filter.mp hj).1]]
    by_cases hq : (s.slot i).owner = q
    · rw [if_pos hq.symm, List.filter_cons, if_pos (decide_eq_true hq)]; rfl
    · rw [if_neg fun e => hq e.symm, List.filter_cons, if_neg (by simpa using hq)]
  · rw [h.segs, seg_withdraw (hs _)]
    unfold State.listWithout
    simp only [seg_withdraw (hs _), segment]
    unfold State.listWithout
    rw [List.filter_filter]
    congr 1
    refine List.filter_congr fun j _ => ?_
    rw [Bool.eq_iff_iff]
    simp only [Bool.and_eq_true, decide_eq_true_eq, List.mem_cons, List.not_mem_nil, or_false]
    tauto
  · rw [h.rest, withdraw_eq (hs _)]
    cases (s.slot i).snapshot.segment <;> rfl

/-- Several requests withdrawn one after another (R53, R54). -/
theorem withdrawn_foldl (st : Status) (l : List SlotId) (s : State) (hl : l.Nodup) (hs : ∀ q, (s.port q).Served) :
    Withdrawn s st l (l.foldl (fun s i => s.withdraw i st) s) := by
  induction l generalizing s with
  | nil => exact withdrawn_nil
  | cons i l ih =>
    obtain ⟨hi, hl⟩ := List.nodup_cons.mp hl
    refine withdrawn_cons hi hs (ih _ hl fun q => ?_)
    rw [port_withdraw (hs _)]
    split
    · exact Port.served_queued _ _ _
    · exact hs q

end

/-! ## The order of a purge -/

theorem mergeFree_perm (k : Nat) (xs ys : List SlotId) (n : Nat) : (mergeFree k xs ys n).1.Perm (xs ++ ys) := by
  induction k, xs, ys, n using mergeFree.induct with
  | case1 => exact .rfl
  | case2 => exact .rfl
  | case3 => simp [mergeFree]
  | case4 k x xs y ys n h ih => simpa [mergeFree, h] using ih
  | case5 k x xs y ys n h ih =>
    simp only [mergeFree, h]
    exact (ih.cons y).trans List.perm_middle.symm

/-- Each of the two lists keeps its own order: a selection that takes from one of them only is that list's (R17). -/
theorem filter_mergeFree (f : SlotId → Bool) (k : Nat) (xs ys : List SlotId) (n : Nat)
    (h : xs.filter f = [] ∨ ys.filter f = []) : (mergeFree k xs ys n).1.filter f = xs.filter f ++ ys.filter f := by
  induction k, xs, ys, n using mergeFree.induct with
  | case1 => simp [mergeFree]
  | case2 => simp [mergeFree]
  | case3 => simp [mergeFree]
  | case4 k x xs y ys n hc ih =>
    have hx : xs.filter f = [] ∨ (y :: ys).filter f = [] := h.imp_left
      fun h => List.filter_eq_nil_iff.mpr fun z hz => List.filter_eq_nil_iff.mp h z (List.mem_cons_of_mem _ hz)
    have step : (mergeFree (k + 1) (x :: xs) (y :: ys) n).1 = x :: (mergeFree k xs (y :: ys) (n + 1)).1 := by
      simp [mergeFree, hc]
    rw [step, List.filter_cons, ih hx, List.filter_cons (x := x)]
    split <;> rfl
  | case5 k x xs y ys n hc ih =>
    have hy : (x :: xs).filter f = [] ∨ ys.filter f = [] := h.imp_right
      fun h => List.filter_eq_nil_iff.mpr fun z hz => List.filter_eq_nil_iff.mp h z (List.mem_cons_of_mem _ hz)
    have step : (mergeFree (k + 1) (x :: xs) (y :: ys) n).1 = y :: (mergeFree k (x :: xs) ys (n + 1)).1 := by
      simp [mergeFree, hc]
    rw [step, List.filter_cons, ih hy, List.filter_cons (x := y)]
    split
    · next hf =>
      have hnil : (x :: xs).filter f = [] := h.resolve_right (by simp [hf])
      rw [hnil]; rfl
    · rfl

/-! ## The purge of a target -/

section
variable {s : State} {u : TargetId}

/-- The requests of a list that a purge takes are those of its target, since all that stand in a list wait (R41, R53). -/
theorem purgeable_eq (h : s.PoolFits) (g : SegId) :
    s.purgeable g u = (s.seg g).list.filter fun i => decide ((s.slot i).target = u.val) := by
  refine List.filter_congr fun i hi => ?_
  rw [((h.listed g i).mp hi).1, Bool.true_and]

theorem mem_purgeable (h : s.PoolFits) {g : SegId} {i : SlotId} : i ∈ s.purgeable g u ↔
    ((s.slot i).waiting = true ∧ (s.slot i).target = u.val) ∧ (s.slot i).snapshot.segment = g := by
  rw [purgeable_eq h, List.mem_filter, h.listed, decide_eq_true_eq]
  tauto

theorem nodup_purgeable (h : s.PoolFits) (g : SegId) : (s.purgeable g u).Nodup :=
  ((h.aged g).imp fun hlt e => absurd hlt (by rw [e]; exact lt_irrefl _)).filter _

/-- The requests that a purge answers (R17, R53). -/
theorem mem_purgeOrder (h : s.PoolFits) {i : SlotId} :
    i ∈ (s.purgeOrder u).1 ↔ (s.slot i).waiting = true ∧ (s.slot i).target = u.val := by
  rw [State.purgeOrder, (mergeFree_perm _ _ _ _).mem_iff, List.mem_append, mem_purgeable h, mem_purgeable h]
  cases (s.slot i).snapshot.segment <;> simp

theorem nodup_purgeOrder (h : s.PoolFits) : (s.purgeOrder u).1.Nodup := by
  rw [State.purgeOrder, (mergeFree_perm _ _ _ _).nodup_iff, List.nodup_append]
  refine ⟨nodup_purgeable h .A, nodup_purgeable h .B, fun i hi j hj e => ?_⟩
  have hA := ((mem_purgeable h).mp hi).2
  have hB := ((mem_purgeable h).mp hj).2
  rw [e, hB] at hA
  cases hA

/-- The requests of one segment are answered in the order of its list (R53). -/
theorem purgeOrder_filter (h : s.PoolFits) (g : SegId) :
    ((s.purgeOrder u).1.filter fun i => decide ((s.slot i).snapshot.segment = g)) = s.purgeable g u := by
  have own k : ((s.purgeable k u).filter fun i => decide ((s.slot i).snapshot.segment = g)) =
      if k = g then s.purgeable k u else [] := by
    split
    · next e => exact List.filter_eq_self.mpr fun i hi => decide_eq_true (((mem_purgeable h).mp hi).2.trans e)
    · next e =>
      refine List.filter_eq_nil_iff.mpr fun i hi hg => e ?_
      rw [← ((mem_purgeable h).mp hi).2, of_decide_eq_true hg]
  rw [State.purgeOrder, filter_mergeFree _ _ _ _ _ (by rw [own, own]; cases g <;> simp), own, own]
  cases g <;> simp

/-- What a purge leaves in a list: the requests of other targets (R17). -/
theorem listWithout_purgeOrder (h : s.PoolFits) (g : SegId) :
    s.listWithout g (s.purgeOrder u).1 = (s.seg g).list.filter fun i => decide ((s.slot i).target ≠ u.val) := by
  refine List.filter_congr fun i hi => decide_eq_decide.mpr ?_
  obtain ⟨hw, hg⟩ := (h.listed g i).mp hi
  simp [mem_purgeOrder h, hw, hg]

end

/-- What a purge leaves, block by block, in the order `l` of its answers (R17, R53). -/
structure Purged (s : State) (l : List SlotId) (t : State) : Prop where
  slots : ∀ i, t.slot i = if i ∈ l then (s.slot i).answered ⟨.retired, .none, 0, []⟩ else s.slot i
  ports : ∀ q, t.port q = (s.port q).queuedAll (l.filter fun i => decide ((s.slot i).owner = q))
    fun i => ((s.slot i).answered ⟨.retired, .none, 0, []⟩).resultFrame
  segs : ∀ g, t.seg g = { s.seg g with list := s.listWithout g l }
  pending : t.pending = s.pending
  resetn : t.resetn = s.resetn
  entries : ∀ u, t.mapEntry u = s.mapEntry u
  managers : t.managers = s.managers
  admissions : t.nextAdmission = s.nextAdmission

theorem purged_purge (s : State) (u : TargetId) (hl : (s.purgeOrder u).1.Nodup) (hs : ∀ q, (s.port q).Served) :
    Purged s (s.purgeOrder u).1 (s.purge u) := by
  obtain ⟨slots, ports, segs, rest⟩ :=
    withdrawn_foldl .retired (s.purgeOrder u).1 { s with freeCount := (s.purgeOrder u).2 } hl hs
  refine ⟨slots, ports, forall_seg (segs .A) (segs .B), ?_, ?_, fun v => ?_, ?_, ?_⟩ <;> rw [State.purge, rest]
  rfl

theorem Purged.served {s t : State} {l : List SlotId} (h : Purged s l t) (hs : ∀ q, (s.port q).Served) (q : PortId) :
    (t.port q).Served := by
  rw [h.ports]; exact Port.served_queuedAll (hs q) _ _

/-- A state told by another one, with both segments and the free count its own. -/
theorem State.eq_withSegs {t x : State} {a b : Seg} (pending : t.pending = x.pending) (resetn : t.resetn = x.resetn)
    (map : ∀ u, t.mapEntry u = x.mapEntry u) (slots : ∀ i, t.slot i = x.slot i) (ports : ∀ q, t.port q = x.port q)
    (managers : t.managers = x.managers) (admissions : t.nextAdmission = x.nextAdmission) (ha : t.seg .A = a)
    (hb : t.seg .B = b) : t = { x with segA := a, segB := b, freeCount := t.freeCount } :=
  State.ext_blocks pending resetn map slots (forall_seg ha hb) ports managers admissions rfl

section
variable {s t : State} {p : PortId} {e : StoreIx} {u : TargetId} {m : MapEntry} {l : List SlotId} {n : Nat}

/-- The whole part after a purge, whatever its operation then makes of the ports (R17, R53). -/
theorem purged_withPorts (f : PortId → Port) (h : Purged ((s.reserved p e).setMapEntry u m) l t)
    (mem : ∀ i, i ∈ l ↔ (s.slot i).waiting = true ∧ (s.slot i).target = n)
    (lists : ∀ g, s.listWithout g l = (s.seg g).list.filter fun i => decide ((s.slot i).target ≠ n)) :
    t.withPorts f =
      { (((s.withSlots fun i =>
          if (s.slot i).waiting ∧ (s.slot i).target = n then (s.slot i).answered ⟨.retired, .none, 0, []⟩
          else s.slot i).withPorts f).setMapEntry u m) with
        segA := { s.segA with list := s.segA.list.filter fun i => decide ((s.slot i).target ≠ n) }
        segB := { s.segB with list := s.segB.list.filter fun i => decide ((s.slot i).target ≠ n) }
        freeCount := t.freeCount } := by
  have segs g : t.seg g = { s.seg g with list := (s.seg g).list.filter fun i => decide ((s.slot i).target ≠ n) } := by
    have same : ((s.reserved p e).setMapEntry u m).seg g = s.seg g := by simp [State.reserved]
    have left : ((s.reserved p e).setMapEntry u m).listWithout g l = s.listWithout g l := by
      rw [State.listWithout, same]; rfl
    rw [h.segs, left, same, lists]
  refine State.eq_withSegs ?_ ?_ (fun w => ?_) (fun i => ?_) (fun q => ?_) ?_ ?_ (segs .A) (segs .B)
  · simp only [pending_setMapEntry, pending_withPorts, pending_withSlots]; exact h.pending
  · simp only [resetn_setMapEntry, resetn_withPorts, resetn_withSlots]; exact h.resetn
  · rw [mapEntry_withPorts, h.entries]
    by_cases hw : w = u
    · rw [hw, mapEntry_setMapEntry, mapEntry_setMapEntry]
    · rw [mapEntry_setMapEntry_ne _ _ hw, mapEntry_setMapEntry_ne _ _ hw, mapEntry_withPorts, mapEntry_withSlots]
      rfl
  · simp only [slot_withPorts, h.slots, slot_setMapEntry, slot_withSlots]
    exact if_congr (mem i) rfl rfl
  · rw [port_withPorts, port_setMapEntry, port_withPorts]
  · simp only [managers_setMapEntry, managers_withPorts, managers_withSlots]; exact h.managers
  · simp only [nextAdmission_setMapEntry, nextAdmission_withPorts, nextAdmission_withSlots]; exact h.admissions

/-- A port other than the asking one after a purge: its RESULTs have joined its queue. -/
theorem purged_port_ne (h : Purged ((s.reserved p e).setMapEntry u m) l t) {q : PortId} (hq : q ≠ p) :
    t.port q = (s.port q).queuedAll (l.filter fun i => decide ((s.slot i).owner = q))
      fun i => ((s.slot i).answered ⟨.retired, .none, 0, []⟩).resultFrame := by
  rw [h.ports, port_setMapEntry, State.reserved, port_setPort_ne _ _ hq]
  rfl

/-- The asking port after a purge and the reply to it, which stands behind the RESULTs. -/
theorem purged_port_sends (h : Purged ((s.reserved p e).setMapEntry u m) l t) (x : StoreEntry) :
    (t.port p).sends e x = ((s.port p).heard.queuedAll (l.filter fun i => decide ((s.slot i).owner = p))
      fun i => ((s.slot i).answered ⟨.retired, .none, 0, []⟩).resultFrame).sends e x := by
  rw [h.ports, port_setMapEntry, State.reserved, port_setPort, Port.queuedAll_setEntry, Port.sends_setEntry]
  rfl

end

/-- Settles O27: the withdrawn requests of the purge, then the notices, then the reply. -/
theorem purgeAnswersTheWaitingRequests : Obligations.PurgeAnswersTheWaitingRequests := by
  intro p tag ix u e s h served pool hu
  refine ⟨_, (s.purgeOrder u).1, execMapRetire_eq h hu rfl, fun g => ?_, ?_⟩
  · rw [purgeOrder_filter pool, purgeable_eq pool]
  intro frame own status
  have done : (if (s.reserved p e).retireEffective u true = true then MgmtStatus.done else .noeffect) = status := by
    have effective : (s.reserved p e).retireEffective u true = ((s.mapEntry u).valid || !(s.purgeOrder u).1.isEmpty) := rfl
    simp only [effective, status, Bool.or_eq_true, Bool.not_eq_true', List.isEmpty_eq_false_iff]
  obtain ⟨t, ht, purged⟩ : ∃ t, ((s.reserved p e).setMapEntry u { s.mapEntry u with valid := false }).purge u = t ∧
      Purged ((s.reserved p e).setMapEntry u { s.mapEntry u with valid := false }) (s.purgeOrder u).1 t :=
    ⟨_, rfl, purged_purge _ u (nodup_purgeOrder (s := s) pool) (served_reserved served)⟩
  have noticed : (s.reserved p e).retireEntry p u true =
      if (s.mapEntry u).valid then t.noticeTo (otherPorts p) .mapChanged (byte u.val) else t := by
    rw [← ht]; rfl
  have ports : (fun q => if q = p then (t.port p).sends e (mreplyEntry tag opMapRetire status [])
      else if (s.mapEntry u).valid then (t.port q).noticedIf .mapChanged (byte u.val) else t.port q) =
      fun q => if q = p then ((s.port p).heard.queuedAll (own p) frame).sends e (mreplyEntry tag 0x03 status [])
      else if (s.mapEntry u).valid then ((s.port q).queuedAll (own q) frame).noticedIf .mapChanged ix
      else (s.port q).queuedAll (own q) frame := by
    funext q
    split
    · exact purged_port_sends purged _
    · next hq => rw [purged_port_ne purged hq, hu, byte_toNat]
  rw [done, noticed, notices_mreply _ (purged.served (served_reserved served)), ports,
    purged_withPorts _ purged (fun _ => mem_purgeOrder pool) (listWithout_purgeOrder pool)]

end Sys2Proof.Machine
end

section
/-! SUPPORT. The pool as the invariants see it (R22, R30, R41, R54, R158): the request records, the pending lists, what the
engines do for them, and the RESULTs that stand in the queues. What leaves these leaves the invariants of the pool and of the
transfers; and what one request's passage must keep so that they hold again. -/
namespace Sys2Proof.Machine

/-! ## The view -/

/-- What an engine does for the requests of its segment: it runs an attempt, serves none, or may take one (R30, R54). -/
inductive Duty where
  | run (a : Attempt)
  | down
  | up

/-- The duty of an engine (R6, R30, R98). -/
def Engine.duty : Engine → Duty
  | .run a => .run a
  | .off => .down
  | .fault => .down
  | .check _ => .up
  | .idle => .up
  | .recover _ => .up

theorem duty_eq_run {n : Engine} {a : Attempt} : n.duty = .run a ↔ n = .run a := by
  cases n <;> simp [Engine.duty]

theorem duty_eq_down {n : Engine} : n.duty = .down ↔ n.down = true := by
  cases n <;> simp [Engine.duty, Engine.down]

theorem duty_of_not_run {n : Engine} (h : n.isRun = false) (a : Attempt) : n.duty ≠ .run a := by
  rw [Ne, duty_eq_run]; rintro rfl; cases h

/-- How often the RESULT of a slot stands in the queue of a port (R158). -/
def Port.ready (v : Port) (i : SlotId) : Nat := v.queue.count (.result i)

/-- The request records, the lists, the duties of the engines, the RESULTs in the queues, and the number of admissions. -/
structure Pool where
  slot : SlotId → Slot
  list : SegId → List SlotId
  duty : SegId → Duty
  ready : PortId → SlotId → Nat
  next : Nat

/-- The pool of a state. -/
def State.pool (s : State) : Pool :=
  ⟨s.slot, fun g => (s.seg g).list, fun g => (s.seg g).engine.duty, fun p => (s.port p).ready, s.nextAdmission⟩

section
variable {s t : State}

theorem pool_eq (slots : ∀ i, t.slot i = s.slot i) (lists : ∀ g, (t.seg g).list = (s.seg g).list)
    (duties : ∀ g, (t.seg g).engine.duty = (s.seg g).engine.duty) (ready : ∀ p, (t.port p).ready = (s.port p).ready)
    (next : t.nextAdmission = s.nextAdmission) : t.pool = s.pool := by
  unfold State.pool
  rw [funext slots, funext lists, funext duties, funext ready, next]

theorem slot_of_pool (h : t.pool = s.pool) (i : SlotId) : t.slot i = s.slot i := congrFun (congrArg Pool.slot h) i

theorem list_of_pool (h : t.pool = s.pool) (g : SegId) : (t.seg g).list = (s.seg g).list :=
  congrFun (congrArg Pool.list h) g

theorem duty_of_pool (h : t.pool = s.pool) (g : SegId) : (t.seg g).engine.duty = (s.seg g).engine.duty :=
  congrFun (congrArg Pool.duty h) g

theorem run_of_pool (h : t.pool = s.pool) {g : SegId} {a : Attempt} :
    (t.seg g).engine = .run a ↔ (s.seg g).engine = .run a := by
  rw [← duty_eq_run, duty_of_pool h, duty_eq_run]

theorem down_of_pool (h : t.pool = s.pool) {g : SegId} : (t.seg g).engine.down = true ↔ (s.seg g).engine.down = true := by
  rw [← duty_eq_down, duty_of_pool h, duty_eq_down]

theorem opened_eq (s : State) (i : SlotId) : s.opened i =
    match (s.seg (s.slot i).snapshot.segment).engine.duty with
    | .run a => a.timing.isSome
    | _ => false := by
  unfold State.opened
  cases (s.seg (s.slot i).snapshot.segment).engine <;> rfl

/-- The invariant of the pool speaks of the pool only. -/
theorem State.PoolFits.of_pool (h : s.PoolFits) (e : t.pool = s.pool) : t.PoolFits := by
  have slot := slot_of_pool e
  have next : t.nextAdmission = s.nextAdmission := congrArg Pool.next e
  have ready p i : (t.port p).queue.count (.result i) = (s.port p).queue.count (.result i) :=
    congrFun (congrFun (congrArg Pool.ready e) p) i
  constructor <;> simp only [State.occupied, slot, next, ready, list_of_pool e, run_of_pool e, down_of_pool e]
  · exact h.slots
  · exact h.numbered
  · exact h.distinct
  · exact h.listed
  · exact h.aged
  · exact h.running
  · exact h.active
  · exact h.down
  · exact h.queued
  · exact h.window
  · exact h.tags

/-- So does the invariant of the transfers. -/
theorem State.TransfersFit.of_pool (h : s.TransfersFit) (e : t.pool = s.pool) : t.TransfersFit := by
  have slot := slot_of_pool e
  have opened i : t.opened i = s.opened i := by rw [opened_eq, opened_eq, slot, duty_of_pool e]
  constructor <;> simp only [slot, opened, run_of_pool e]
  · exact h.fields
  · exact h.counts
  · exact h.attempts
  · exact h.results

/-- Pool and transfers fit together. -/
structure State.Sound (s : State) : Prop where
  pool : s.PoolFits
  transfers : s.TransfersFit

theorem State.Sound.of_pool (h : s.Sound) (e : t.pool = s.pool) : t.Sound :=
  ⟨h.pool.of_pool e, h.transfers.of_pool e⟩

theorem State.Legal.sound (h : s.Legal) : s.Sound := ⟨h.pool, h.transfers⟩

end

/-! ## One request moves -/

/-- What a request keeps from its admission on (R13, R19). -/
structure Request where
  owner : PortId
  tag : Byte
  target : Nat
  snapshot : Snapshot
  operation : Operation
  subAddress : Option Nat
  writeData : List Byte
  readLength : Option Nat
  admission : Nat

/-- The request of a record. -/
def Slot.request (r : Slot) : Request :=
  ⟨r.owner, r.tag, r.target, r.snapshot, r.operation, r.subAddress, r.writeData, r.readLength, r.admission⟩

/-- A record that is occupied holds the same request as before, and is an orphan still if it was one (R22, R24, R39). -/
def Slot.Continues (r' r : Slot) : Prop :=
  r'.occupied = true → r.occupied = true ∧ r'.request = r.request ∧ (r'.orphan = false → r.orphan = false)

theorem Slot.Continues.refl (r : Slot) : r.Continues r := fun h => ⟨h, rfl, id⟩

theorem continues_cleared (r : Slot) : Slot.cleared.Continues r := fun h => by cases h

theorem occupied_of_waiting {r : Slot} (h : r.waiting = true) : r.occupied = true := by
  simp only [Slot.waiting, decide_eq_true_eq] at h
  simp only [Slot.occupied, decide_eq_true_eq]
  rcases h with h | h <;> simp [h]

theorem not_waiting_of_active {r : Slot} (h : r.state = .active) : r.waiting = false := by simp [Slot.waiting, h]

section
variable {r r' : Slot} (e : r'.request = r.request)
include e
theorem owner_of_request : r'.owner = r.owner := congrArg Request.owner e
theorem tag_of_request : r'.tag = r.tag := congrArg Request.tag e
theorem snapshot_of_request : r'.snapshot = r.snapshot := congrArg Request.snapshot e
theorem admission_of_request : r'.admission = r.admission := congrArg Request.admission e
theorem operation_of_request : r'.operation = r.operation := congrArg Request.operation e
theorem subAddress_of_request : r'.subAddress = r.subAddress := congrArg Request.subAddress e
theorem writeData_of_request : r'.writeData = r.writeData := congrArg Request.writeData e
theorem readLength_of_request : r'.readLength = r.readLength := congrArg Request.readLength e
end

/-- The bounds that the identity of the occupied records bears (R23, R24, R41): they hold on where every occupied record
continues a request. -/
theorem identities_of_continues {s t : State} (h : s.PoolFits) (hc : ∀ i, (t.slot i).Continues (s.slot i))
    (hn : t.nextAdmission = s.nextAdmission) :
    (∀ i, (t.slot i).occupied = true → (t.slot i).admission < t.nextAdmission) ∧
    (∀ i j, (t.slot i).occupied = true → (t.slot j).occupied = true →
      (t.slot i).admission = (t.slot j).admission → i = j) ∧
    (∀ p, t.occupied p ≤ Config.window) ∧
    ∀ i j, (t.slot i).live = true → (t.slot j).live = true → (t.slot i).owner = (t.slot j).owner →
      (t.slot i).tag = (t.slot j).tag → i = j := by
  refine ⟨fun i hi => ?_, fun i j hi hj => ?_, fun p => ?_, fun i j hi hj => ?_⟩
  · obtain ⟨ho, hr, _⟩ := hc i hi
    rw [admission_of_request hr, hn]
    exact h.numbered i ho
  · obtain ⟨hoi, hri, _⟩ := hc i hi
    obtain ⟨hoj, hrj, _⟩ := hc j hj
    rw [admission_of_request hri, admission_of_request hrj]
    exact h.distinct i j hoi hoj
  · refine le_trans (List.Sublist.length_le (List.monotone_filter_right _ fun i hi => ?_)) (h.window p)
    simp only [Bool.and_eq_true, decide_eq_true_eq] at hi ⊢
    obtain ⟨ho, hr, _⟩ := hc i hi.1
    exact ⟨ho, (owner_of_request hr).symm.trans hi.2⟩
  · have live k (hk : (t.slot k).live = true) : (s.slot k).live = true ∧ (t.slot k).request = (s.slot k).request := by
      simp only [Slot.live, Bool.and_eq_true, Bool.not_eq_true'] at hk ⊢
      obtain ⟨ho, hr, hx⟩ := hc k hk.1
      exact ⟨⟨ho, hx hk.2⟩, hr⟩
    obtain ⟨hli, hri⟩ := live i hi
    obtain ⟨hlj, hrj⟩ := live j hj
    rw [owner_of_request hri, owner_of_request hrj, tag_of_request hri, tag_of_request hrj]
    exact h.tags i j hli hlj

/-- One request `i` moves, and all others stay: its record, its place in the list of its segment, the engine it may have run
or runs now, and its RESULT (R22, R30 to R36, R41). The engine of its segment goes on as it was, or turns from this request
or to it. -/
structure State.Moved (s t : State) (i : SlotId) : Prop where
  same : ∀ j, j ≠ i → t.slot j = s.slot j
  continues : (t.slot i).Continues (s.slot i)
  fits : (t.slot i).Fits
  lists : ∀ g, g ≠ (s.slot i).snapshot.segment → (t.seg g).list = (s.seg g).list
  members : ∀ j, j ≠ i → (j ∈ (t.seg (s.slot i).snapshot.segment).list ↔ j ∈ (s.seg (s.slot i).snapshot.segment).list)
  listed : i ∈ (t.seg (s.slot i).snapshot.segment).list ↔ (t.slot i).waiting = true
  aged : (t.seg (s.slot i).snapshot.segment).list.Pairwise fun j k => (s.slot j).admission < (s.slot k).admission
  duties : ∀ g, g ≠ (s.slot i).snapshot.segment → (t.seg g).engine.duty = (s.seg g).engine.duty
  duty : (t.seg (s.slot i).snapshot.segment).engine.duty = (s.seg (s.slot i).snapshot.segment).engine.duty ∧
      ((t.slot i).state = .active ↔ (s.slot i).state = .active) ∨
    (∀ a, (s.seg (s.slot i).snapshot.segment).engine.duty = .run a → a.slot = i) ∧
      (∀ a, (t.seg (s.slot i).snapshot.segment).engine.duty = .run a → a.slot = i) ∧
      ((t.slot i).state = .active ↔ ∃ a, (t.seg (s.slot i).snapshot.segment).engine.duty = .run a)
  down : (t.seg (s.slot i).snapshot.segment).engine.duty = .down → (t.seg (s.slot i).snapshot.segment).list = []
  queued : ∀ p j, j ≠ i → (t.port p).ready j = (s.port p).ready j
  answered : ∀ p, (t.port p).ready i = if (t.slot i).state = .answer ∧ (t.slot i).owner = p then 1 else 0
  next : t.nextAdmission = s.nextAdmission

section
variable {s t : State} {i : SlotId}

theorem State.Moved.continues_all (m : s.Moved t i) (j : SlotId) : (t.slot j).Continues (s.slot j) := by
  by_cases hj : j = i
  · rw [hj]; exact m.continues
  · rw [m.same j hj]; exact .refl _

/-- The segment of an active record is that of its request. -/
theorem State.Moved.segment (m : s.Moved t i) {j : SlotId} (h : (t.slot j).occupied = true) :
    (t.slot j).snapshot.segment = (s.slot j).snapshot.segment := by
  obtain ⟨_, hr, _⟩ := m.continues_all j h
  rw [snapshot_of_request hr]

theorem occupied_of_active {r : Slot} (h : r.state = .active) : r.occupied = true := by simp [Slot.occupied, h]

theorem active_of_run (h : s.PoolFits) {g : SegId} {a : Attempt} (hr : (s.seg g).engine.duty = .run a) :
    (s.slot a.slot).state = .active ∧ (s.slot a.slot).snapshot.segment = g := h.running g a (duty_eq_run.mp hr)

theorem run_of_active (h : s.PoolFits) {j : SlotId} (ha : (s.slot j).state = .active) :
    ∃ a, (s.seg (s.slot j).snapshot.segment).engine.duty = .run a ∧ a.slot = j := by
  obtain ⟨a, hr, hs⟩ := h.active j ha
  exact ⟨a, duty_eq_run.mpr hr, hs⟩

/-- The pool fits again when one request has moved. -/
theorem State.PoolFits.of_moved (h : s.PoolFits) (m : s.Moved t i) : t.PoolFits := by
  obtain ⟨numbered, distinct, window, tags⟩ := identities_of_continues h m.continues_all m.next
  have seg (hw : (t.slot i).occupied = true) : (t.slot i).snapshot.segment = (s.slot i).snapshot.segment := m.segment hw
  have outside {g : SegId} (hg : g ≠ (s.slot i).snapshot.segment) : i ∉ (t.seg g).list := by
    rw [m.lists g hg, h.listed]
    exact fun hi => hg hi.2.symm
  have listed g j : j ∈ (t.seg g).list ↔ (t.slot j).waiting = true ∧ (t.slot j).snapshot.segment = g := by
    by_cases hg : g = (s.slot i).snapshot.segment
    · by_cases hj : j = i
      · rw [hj, hg]
        refine m.listed.trans ⟨fun hw => ⟨hw, seg (occupied_of_waiting hw)⟩, And.left⟩
      · rw [m.same j hj, ← h.listed, hg]
        exact m.members j hj
    · by_cases hj : j = i
      · rw [hj]
        refine ⟨fun hi => absurd hi (outside hg), fun ⟨hw, hs⟩ => absurd (hs.symm.trans (seg (occupied_of_waiting hw))) hg⟩
      · rw [m.same j hj, ← h.listed, m.lists g hg]
  have aged_of {g : SegId} (ha : (t.seg g).list.Pairwise fun j k => (s.slot j).admission < (s.slot k).admission) :
      (t.seg g).list.Pairwise fun j k => (t.slot j).admission < (t.slot k).admission := by
    refine ha.imp_of_mem fun {j k} hj hk hlt => ?_
    have admission {j} (hj : j ∈ (t.seg g).list) : (t.slot j).admission = (s.slot j).admission :=
      admission_of_request (m.continues_all j (occupied_of_waiting ((listed g j).mp hj).1)).2.1
    rwa [admission hj, admission hk]
  refine ⟨fun j => ?_, numbered, distinct, listed, fun g => aged_of ?_, fun g a hr => ?_, fun j hj => ?_, fun g hd => ?_,
    fun p j => ?_, window, tags⟩
  case refine_1 =>
    by_cases hj : j = i
    · rw [hj]; exact m.fits
    · rw [m.same j hj]; exact h.slots j
  case refine_2 =>
    by_cases hg : g = (s.slot i).snapshot.segment
    · rw [hg]; exact m.aged
    · rw [m.lists g hg]; exact h.aged g
  case refine_3 =>
    have hr' : (t.seg g).engine.duty = .run a := duty_eq_run.mpr hr
    have kept (hk : (t.seg g).engine.duty = (s.seg g).engine.duty) (ho : a.slot = i → (t.slot i).state = .active) :
        (t.slot a.slot).state = .active ∧ (t.slot a.slot).snapshot.segment = g := by
      obtain ⟨hs, hg⟩ := active_of_run h (hk.symm.trans hr')
      by_cases ha : a.slot = i
      · rw [ha] at hg ⊢
        exact ⟨ho ha, (seg (occupied_of_active (ho ha))).trans hg⟩
      · rw [m.same _ ha]; exact ⟨hs, hg⟩
    by_cases hg : g = (s.slot i).snapshot.segment
    · rw [hg] at hr' kept ⊢
      rcases m.duty with ⟨hk, hst⟩ | ⟨_, ha, hst⟩
      · refine kept hk fun ha => hst.mpr ?_
        rw [← ha]
        exact (active_of_run h (hk.symm.trans hr')).1
      · have hact := hst.mpr ⟨a, hr'⟩
        rw [ha a hr']
        exact ⟨hact, seg (occupied_of_active hact)⟩
    · refine kept (m.duties g hg) fun ha => ?_
      have := (active_of_run h ((m.duties g hg).symm.trans hr')).2
      rw [ha] at this
      exact absurd this.symm hg
  case refine_4 =>
    rw [m.segment (occupied_of_active hj)]
    suffices ∃ a, (t.seg (s.slot j).snapshot.segment).engine.duty = .run a ∧ a.slot = j by
      obtain ⟨a, hr, ha⟩ := this
      exact ⟨a, duty_eq_run.mp hr, ha⟩
    by_cases hi : j = i
    · subst hi
      rcases m.duty with ⟨hk, hst⟩ | ⟨_, ha, hst⟩
      · obtain ⟨a, hr, ha⟩ := run_of_active h (hst.mp hj)
        exact ⟨a, hk.trans hr, ha⟩
      · obtain ⟨a, hr⟩ := hst.mp hj
        exact ⟨a, hr, ha a hr⟩
    · rw [m.same j hi] at hj
      obtain ⟨a, hr, ha⟩ := run_of_active h hj
      by_cases hg : (s.slot j).snapshot.segment = (s.slot i).snapshot.segment
      · rcases m.duty with ⟨hk, _⟩ | ⟨hp, _⟩
        · rw [hg] at hr ⊢; exact ⟨a, hk.trans hr, ha⟩
        · rw [hg] at hr; exact absurd (ha.symm.trans (hp a hr)) hi
      · exact ⟨a, (m.duties _ hg).trans hr, ha⟩
  case refine_5 =>
    have hd' : (t.seg g).engine.duty = .down := duty_eq_down.mpr hd
    by_cases hg : g = (s.slot i).snapshot.segment
    · rw [hg] at hd' ⊢; exact m.down hd'
    · rw [m.lists g hg]
      exact h.down g (duty_eq_down.mp ((m.duties g hg).symm.trans hd'))
  case refine_6 =>
    change (t.port p).ready j = _
    by_cases hj : j = i
    · rw [hj]; exact m.answered p
    · rw [m.queued p j hj, m.same j hj]; exact h.queued p j

/-- The optional fields of a request are what they were at its admission. -/
theorem Slot.FieldsFit.of_request {r r' : Slot} (h : r.FieldsFit) (e : r'.request = r.request) : r'.FieldsFit := by
  unfold Slot.FieldsFit at *
  rw [subAddress_of_request e, snapshot_of_request e, operation_of_request e, writeData_of_request e, readLength_of_request e]
  exact h

theorem Result.Fits.of_request {res : Result} {r r' : Slot} (h : res.Fits r) (e : r'.request = r.request) : res.Fits r' where
  written := by rw [writeData_of_request e]; exact h.written
  ok := by rw [writeData_of_request e, readLength_of_request e]; exact h.ok
  failed := h.failed
  scheduler := h.scheduler

theorem phases_of_request {r r' : Slot} (e : r'.request = r.request) : r'.phases = r.phases := by
  simp only [Slot.phases, Slot.middlePhases, operation_of_request e, subAddress_of_request e, snapshot_of_request e,
    writeData_of_request e]

theorem Attempt.Fits.of_request {a : Attempt} {r r' : Slot} (h : a.Fits r) (e : r'.request = r.request) : a.Fits r' where
  phase := by rw [phases_of_request e]; exact h.phase
  written := by rw [writeData_of_request e]; exact h.written
  opened := h.opened
  restarted := h.restarted
  followed := h.followed
  failed := h.failed
  early := h.early
  writing := by rw [writeData_of_request e]; exact h.writing
  turning := by rw [writeData_of_request e]; exact h.turning
  reading := by rw [writeData_of_request e, readLength_of_request e]; exact h.reading
  stopping := by rw [writeData_of_request e, readLength_of_request e]; exact h.stopping

/-- Only an ACTIVE request's counts depend on whether its attempt has been opened (R78). -/
theorem Slot.CountsFit.of_not_active {r : Slot} {b : Bool} (h : r.CountsFit b) (hr : r.state ≠ .active) (b' : Bool) :
    r.CountsFit b' := by
  obtain ⟨h1, h2, h3, h4, h5, h6⟩ := h
  exact ⟨h1, h2, h3, h4, h5, by simpa [hr] using h6⟩

/-- The transfers fit again when one request has moved, whose counts, attempt and result fit. -/
theorem State.TransfersFit.of_moved (h : s.PoolFits) (ht : s.TransfersFit) (m : s.Moved t i)
    (counts : (t.slot i).occupied = true → (t.slot i).CountsFit (t.opened i))
    (attempt : ∀ a, (t.seg (s.slot i).snapshot.segment).engine = .run a → a.slot = i → a.Fits (t.slot i))
    (results : ∀ res, (t.slot i).result = some res → res.Fits (t.slot i)) : t.TransfersFit := by
  refine ⟨fun j hj => ?_, fun j hj => ?_, fun g a hr => ?_, fun j res hres => ?_⟩
  case refine_1 =>
    obtain ⟨ho, hr, _⟩ := m.continues_all j hj
    exact (ht.fields j ho).of_request hr
  case refine_2 =>
    by_cases hi : j = i
    · rw [hi] at hj ⊢; exact counts hj
    · have hc : (t.slot j).CountsFit (s.opened j) := by
        rw [m.same j hi] at hj ⊢; exact ht.counts j hj
      by_cases hact : (t.slot j).state = .active
      · have hduty : (t.seg (t.slot j).snapshot.segment).engine.duty = (s.seg (s.slot j).snapshot.segment).engine.duty := by
          rw [m.same j hi] at hact ⊢
          by_cases hg : (s.slot j).snapshot.segment = (s.slot i).snapshot.segment
          · rcases m.duty with ⟨hk, _⟩ | ⟨hp, _⟩
            · rw [hg]; exact hk
            · obtain ⟨a, hr, ha⟩ := run_of_active h hact
              rw [hg] at hr
              exact absurd (ha.symm.trans (hp a hr)) hi
          · exact m.duties _ hg
        rw [opened_eq, hduty, ← opened_eq]
        exact hc
      · exact hc.of_not_active hact _
  case refine_3 =>
    have hr' : (t.seg g).engine.duty = .run a := duty_eq_run.mpr hr
    by_cases ha : a.slot = i
    · have hg := (active_of_run (h.of_moved m) hr').2
      rw [ha] at hg ⊢
      have hocc := occupied_of_active (active_of_run (h.of_moved m) hr').1
      rw [ha] at hocc
      rw [m.segment hocc] at hg
      exact attempt a (hg ▸ hr) ha
    · rw [m.same _ ha]
      refine ht.attempts g a (duty_eq_run.mp ?_)
      by_cases hg : g = (s.slot i).snapshot.segment
      · rw [hg] at hr' ⊢
        rcases m.duty with ⟨hk, _⟩ | ⟨_, hq, _⟩
        · exact hk.symm.trans hr'
        · exact absurd (hq a hr') ha
      · exact (m.duties g hg).symm.trans hr'
  case refine_4 =>
    by_cases hi : j = i
    · rw [hi] at hres ⊢; exact results res hres
    · rw [m.same j hi] at hres ⊢; exact ht.results j res hres

end

end Sys2Proof.Machine
end

section
/-! SUPPORT. The operations that leave the pool: those of the store and of the line, and those of a segment that neither change
its list nor its engine's duty. -/
namespace Sys2Proof.Machine

/-! ## Blocks replaced -/

section
variable {s : State} {p : PortId} {g : SegId}

theorem pool_setPort {v : Port} (h : v.ready = (s.port p).ready) : (s.setPort p v).pool = s.pool := by
  refine pool_eq (fun _ => rfl) (fun _ => by simp) (fun _ => by simp) (fun q => ?_) rfl
  rw [port_setPort_eq]
  split
  · next e => rw [e, h]
  · rfl

theorem pool_modPort {f : Port → Port} (h : (f (s.port p)).ready = (s.port p).ready) : (s.modPort p f).pool = s.pool :=
  pool_setPort h

theorem pool_setSeg {v : Seg} (hl : v.list = (s.seg g).list) (hd : v.engine.duty = (s.seg g).engine.duty) :
    (s.setSeg g v).pool = s.pool := by
  refine pool_eq (fun _ => by simp) (fun k => ?_) (fun k => ?_) (fun _ => by simp) (by simp) <;>
  · rw [seg_setSeg_eq]
    split
    · next e => rw [e]; assumption
    · rfl

theorem pool_modSeg {f : Seg → Seg} (hl : (f (s.seg g)).list = (s.seg g).list)
    (hd : (f (s.seg g)).engine.duty = (s.seg g).engine.duty) : (s.modSeg g f).pool = s.pool := pool_setSeg hl hd

@[simp] theorem pool_setMapEntry (t : TargetId) (e : MapEntry) : (s.setMapEntry t e).pool = s.pool :=
  pool_eq (fun _ => rfl) (fun _ => by simp) (fun _ => by simp) (fun _ => rfl) rfl

/-- What each step of a fold leaves, the fold leaves. -/
theorem pool_foldl {α : Type} {f : State → α → State} (h : ∀ s x, (f s x).pool = s.pool) (l : List α) (s : State) :
    (l.foldl f s).pool = s.pool := by
  induction l generalizing s with
  | nil => rfl
  | cons x l ih => rw [List.foldl_cons, ih, h]

end

/-! ## The outgoing side -/

/-- A transmitter that takes up an item leaves the queue (R160). -/
theorem give_queue (s : State) (p : PortId) : ∃ v, s.give p = s.setPort p v ∧ v.queue = (s.port p).queue := by
  unfold State.give
  split
  · next item _ _ _ => exact ⟨_, rfl, by cases item <;> rfl⟩
  · exact ⟨s.port p, by simp, rfl⟩

/-- An item that becomes ready joins the tail of the queue (R159). -/
theorem enqueue_queue (s : State) (p : PortId) (item : Item) :
    ∃ v, s.enqueue p item = s.setPort p v ∧ v.queue = (s.port p).queue ++ [item] := by
  obtain ⟨v, hv, hq⟩ := give_queue (s.modPort p fun v => { v with queue := v.queue ++ [item] }) p
  refine ⟨v, ?_, ?_⟩
  · rw [State.enqueue, hv, State.modPort, setPort_setPort]
  · rw [hq, State.modPort, port_setPort]

theorem ready_append_entry (v : Port) (e : StoreIx) (i : SlotId) :
    (v.queue ++ [Item.entry e]).count (Item.result i) = v.ready i := by
  rw [List.count_append, List.count_eq_zero_of_not_mem (l := [_]) (by simp), Nat.add_zero]
  rfl

theorem ready_dropNotice (v : Port) (e : StoreIx) : (v.dropNotice e).ready = v.ready := by
  funext i
  exact List.count_filter (by simp)

theorem ready_room {v u : Port} {e : StoreIx} (h : v.room = some (e, u)) : u.ready = v.ready := by
  unfold Port.room at h
  split at h
  · cases h; rfl
  · split at h
    · cases h; exact ready_dropNotice _ _
    · cases h

section
variable (s : State) (p : PortId)

@[simp] theorem pool_give : (s.give p).pool = s.pool := by
  obtain ⟨v, hv, hq⟩ := give_queue s p
  rw [hv]
  exact pool_setPort (by unfold Port.ready; rw [hq])

@[simp] theorem pool_enqueueEntry (e : StoreIx) : (s.enqueue p (.entry e)).pool = s.pool := by
  obtain ⟨v, hv, hq⟩ := enqueue_queue s p (.entry e)
  rw [hv]
  refine pool_setPort (funext fun i => ?_)
  rw [Port.ready, hq, ready_append_entry]

@[simp] theorem pool_compose (e : StoreIx) (x : StoreEntry) : (s.compose p e x).pool = s.pool := by
  rw [State.compose, pool_enqueueEntry]
  exact pool_modPort rfl

@[simp] theorem pool_refuse (e : StoreIx) (reason : Reason) (kind tag : Byte) :
    (s.refuse p e reason kind tag).pool = s.pool := pool_compose _ _ _ _

@[simp] theorem pool_mreply (e : StoreIx) (tag op : Byte) (st : MgmtStatus) (reply : List Byte) :
    (s.mreply p e tag op st reply).pool = s.pool := pool_compose _ _ _ _

@[simp] theorem pool_badarg (e : StoreIx) (tag op : Byte) : (s.badarg p e tag op).pool = s.pool := pool_mreply _ _ _ _ _ _ _

@[simp] theorem pool_canreply (e : StoreIx) (tag : Byte) (o : CancelOutcome) (named : Byte) :
    (s.canreply p e tag o named).pool = s.pool := pool_compose _ _ _ _

@[simp] theorem pool_notice (kind : NoticeKind) (arg : Byte) : (s.notice p kind arg).pool = s.pool := by
  have numbered : (s.modPort p fun v => { v with noticeSeq := v.noticeSeq + 1 }).pool = s.pool := pool_modPort rfl
  unfold State.notice
  dsimp only
  split
  · next e v hv => rw [pool_compose, pool_setPort (ready_room hv), numbered]
  · rw [← numbered]; exact pool_modPort rfl

@[simp] theorem pool_noticeIf (kind : NoticeKind) (arg : Byte) : (s.noticeIf p kind arg).pool = s.pool := by
  unfold State.noticeIf; split <;> simp

@[simp] theorem pool_noticeTo (ps : List PortId) (kind : NoticeKind) (arg : Byte) :
    (s.noticeTo ps kind arg).pool = s.pool := pool_foldl (fun _ _ => pool_noticeIf _ _ _ _) ps s

/-- A message that passes the gate is handled on the same pool; one that is discarded there leaves it (R163). -/
theorem sound_gate {kind : ShortKind} {k : StoreIx → State → State} (h : s.Sound)
    (hk : ∀ e t, t.charter = s.charter → t.Sound → (k e t).Sound) : (s.gate p kind k).Sound := by
  unfold State.gate
  split
  · next e v hv => exact hk _ _ rfl (h.of_pool (pool_setPort (v := v.setEntry e _) (ready_room (u := v) hv)))
  · exact h.of_pool (pool_modPort rfl)

/-! ## The line of a port -/

@[simp] theorem pool_endBreak : (s.endBreak p).pool = s.pool := by
  have held (t : State) : (t.modPort p Port.leaveHeld).pool = t.pool :=
    pool_modPort (by unfold Port.leaveHeld; split <;> rfl)
  rw [State.endBreak, pool_give, held, pool_notice]
  exact pool_modPort rfl

@[simp] theorem pool_endBreakIfMark : (s.endBreakIfMark p).pool = s.pool := by
  unfold State.endBreakIfMark; split <;> simp

theorem queue_countAbandoned (v : Port) : v.countAbandoned.queue = v.queue := by
  unfold Port.countAbandoned; split <;> rfl

theorem ready_applySwitch (v : Port) (f : LineFormat) : (v.applySwitch f).ready = v.ready :=
  congrArg (fun q : List Item => fun i => q.count (.result i)) (queue_countAbandoned v)

@[simp] theorem pool_switchNow (f : LineFormat) : (s.switchNow p f).pool = s.pool := by
  unfold State.switchNow
  split
  · rw [pool_endBreakIfMark]; exact pool_modPort rfl
  · exact pool_modPort (ready_applySwitch _ _)

@[simp] theorem pool_switchAt (item : Item) : (s.switchAt p item).pool = s.pool := by
  unfold State.switchAt
  split
  · split
    · exact pool_modPort (ready_applySwitch _ _)
    · rfl
  · rfl

@[simp] theorem pool_setFormat (q : PortId) (e : StoreIx) (f : LineFormat) : (s.setFormat p q e f).pool = s.pool := by
  unfold State.setFormat
  split
  · rfl
  · split
    · exact pool_modPort rfl
    · split
      · exact pool_modPort rfl
      · exact pool_switchNow _ _ _

theorem ready_countAbandoned (v : Port) : v.countAbandoned.ready = v.ready :=
  congrArg (fun q : List Item => fun i => q.count (.result i)) (queue_countAbandoned v)

theorem ready_characterError (v : Port) (atMark : Bool) : (v.characterError atMark).ready = v.ready := by
  unfold Port.characterError
  dsimp only
  split <;> exact ready_countAbandoned v.countCharacterError

/-! ## Management operations that only reply -/

variable (e : StoreIx) (tag : Byte) (args : List Byte)

@[simp] theorem pool_mapWrite : (s.mapWrite p e tag args).pool = s.pool := by
  unfold State.mapWrite
  split
  · split <;> simp [State.writeEntry]
  · simp

@[simp] theorem pool_mapRead : (s.mapRead p e tag args).pool = s.pool := by
  unfold State.mapRead
  split
  · split <;> simp
  · simp

@[simp] theorem pool_setProfile (q : PortId) (x : Profile) : (s.setProfile p q e x).pool = s.pool := by
  rw [State.setProfile, pool_setFormat, pool_modPort (by rfl)]
  rfl

@[simp] theorem pool_portSet : (s.portSet p e tag args).pool = s.pool := by
  unfold State.portSet
  split
  · split
    · split
      · simp
      · split <;> simp
    · simp
  · simp

@[simp] theorem pool_portRead : (s.portRead p e tag args).pool = s.pool := by
  unfold State.portRead
  split
  · split <;> simp
  · simp

@[simp] theorem pool_setHeld (op : Byte) (g : SegId) (b : Bool) : (s.setHeld p e tag op g b).pool = s.pool := by
  unfold State.setHeld
  split
  · simp
  · rw [pool_mreply]; exact pool_setSeg rfl rfl

@[simp] theorem pool_segHold : (s.segHold p e tag args).pool = s.pool := by
  unfold State.segHold
  split
  · split <;> simp
  · simp

@[simp] theorem pool_segRelease : (s.segRelease p e tag args).pool = s.pool := by
  unfold State.segRelease
  split
  · split <;> simp
  · simp

@[simp] theorem pool_clearCounters (x : Selector) : (s.clearCounters x).pool = s.pool := by
  cases x with
  | port q => exact pool_modPort rfl
  | seg g => exact pool_setSeg rfl rfl
  | pool => rfl

@[simp] theorem pool_statusRead : (s.statusRead p e tag args).pool = s.pool := by
  unfold State.statusRead
  split
  · split
    · rw [pool_mreply]; split <;> simp
    · simp
  · simp

@[simp] theorem pool_restartOp : (s.restartOp p e tag args).pool = s.pool := by
  unfold State.restartOp; split <;> simp

/-! ## Segments -/

variable (g : SegId)

@[simp] theorem pool_answerRecovery (st : MgmtStatus) : (s.answerRecovery g st).pool = s.pool := by
  unfold State.answerRecovery
  split
  · rfl
  · dsimp only
    split
    · rw [pool_mreply]; exact pool_setSeg rfl rfl
    · exact pool_setSeg rfl rfl

end

end Sys2Proof.Machine
end

section
/-! SUPPORT. The passages of one request (R30 to R36, R38, R48, R49): it is answered, freed, returned to its list, or changed in
its place; each is a move of that request alone. -/
namespace Sys2Proof.Machine

/-! ## A request answered -/

section
variable (s : State) (i : SlotId) (res : Result)

/-- A request answered, block by block: its record, and its RESULT in its owner's queue (R21, R31, R36, R159). -/
theorem answer_queue : ∃ v, s.answer i res = (s.setSlot i ((s.slot i).answered res)).setPort (s.slot i).owner v ∧
    v.queue = (s.port (s.slot i).owner).queue ++ [.result i] :=
  enqueue_queue (s.setSlot i ((s.slot i).answered res)) (s.slot i).owner (.result i)

theorem slot_answer (j : SlotId) : (s.answer i res).slot j = if j = i then (s.slot i).answered res else s.slot j := by
  obtain ⟨v, hv, _⟩ := answer_queue s i res
  rw [hv, slot_setPort, slot_setSlot_eq]

@[simp] theorem seg_answer (g : SegId) : (s.answer i res).seg g = s.seg g := by
  obtain ⟨v, hv, _⟩ := answer_queue s i res
  rw [hv, seg_setPort, seg_setSlot]

@[simp] theorem nextAdmission_answer : (s.answer i res).nextAdmission = s.nextAdmission := by
  obtain ⟨v, hv, _⟩ := answer_queue s i res
  rw [hv]; rfl

theorem ready_answer (p : PortId) (j : SlotId) : ((s.answer i res).port p).ready j =
    (s.port p).ready j + if p = (s.slot i).owner ∧ j = i then 1 else 0 := by
  obtain ⟨v, hv, hq⟩ := answer_queue s i res
  rw [hv, port_setPort_eq]
  by_cases hp : p = (s.slot i).owner
  · rw [if_pos hp, Port.ready, hq, List.count_append, ← hp]
    by_cases hj : j = i
    · simp [hj, hp, Port.ready]
    · rw [List.count_eq_zero_of_not_mem (l := [_]) (by simpa using hj), if_neg fun h => hj h.2]; rfl
  · rw [if_neg hp, if_neg fun h => hp h.1]; rfl

end

/-! ## What a request's place says -/

section
variable {s t : State} {i : SlotId} {r : Slot}

theorem seg_unlist (s : State) (i : SlotId) (g : SegId) : (s.unlist i).seg g =
    if g = (s.slot i).snapshot.segment then
      { s.seg g with list := (s.seg g).list.filter fun j => decide (j ≠ i) } else s.seg g := by
  rw [State.unlist, seg_setSeg_eq]
  split
  · next e => rw [e]
  · rfl

theorem filter_ne_eq_self {l : List SlotId} (h : i ∉ l) : (l.filter fun j => decide (j ≠ i)) = l :=
  List.filter_eq_self.mpr fun _ hj => decide_eq_true fun e => h (e ▸ hj)

theorem not_mem_list (h : s.PoolFits) {g : SegId} (hi : (s.slot i).waiting = true → (s.slot i).snapshot.segment ≠ g) :
    i ∉ (s.seg g).list := fun hm => hi ((h.listed g i).mp hm).1 ((h.listed g i).mp hm).2

/-- A request leaves the lists where it stands in none but that of its segment (R41, R42). -/
theorem list_unlist (h : s.PoolFits) (g : SegId) :
    ((s.unlist i).seg g).list = (s.seg g).list.filter fun j => decide (j ≠ i) := by
  rw [seg_unlist]
  split
  · rfl
  · next hg => exact (filter_ne_eq_self (not_mem_list h fun _ e => hg e.symm)).symm

theorem duty_unlist (s : State) (i : SlotId) (g : SegId) :
    ((s.unlist i).seg g).engine.duty = (s.seg g).engine.duty := by
  rw [seg_unlist]; split <;> rfl

/-- What an engine runs is the one ACTIVE request of its segment (R30). -/
theorem run_slot_unique {g : SegId} {a b : Attempt} (ha : (s.seg g).engine.duty = .run a)
    (hb : (s.seg g).engine.duty = .run b) : a.slot = b.slot := by
  rw [ha] at hb; cases hb; rfl

theorem ready_eq_zero (h : s.PoolFits) (hn : (s.slot i).state ≠ .answer) (p : PortId) : (s.port p).ready i = 0 :=
  (h.queued p i).trans (if_neg fun e => hn e.1)

theorem answered_fits {r : Slot} (res : Result) (ho : r.orphan = false) : (r.answered res).Fits where
  free h := by cases h
  orphan h := by rw [show (r.answered res).orphan = r.orphan from rfl, ho] at h; cases h
  result := by simp [Slot.answered]
  retry := by simp [Slot.answered]
  lifetime h := by cases h
  deadline _ := rfl

theorem not_orphan_of_waiting (h : (s.slot i).Fits) (hw : (s.slot i).waiting = true) : (s.slot i).orphan = false := by
  cases ho : (s.slot i).orphan with
  | false => rfl
  | true => rw [not_waiting_of_active (h.orphan ho)] at hw; cases hw

/-- What an engine does while a request of its segment moves: it goes on, or it ran that request and may take another. -/
structure EngineMoves (s t : State) (i : SlotId) : Prop where
  others : ∀ g, g ≠ (s.slot i).snapshot.segment → (t.seg g).engine.duty = (s.seg g).engine.duty
  own : (t.seg (s.slot i).snapshot.segment).engine.duty = (s.seg (s.slot i).snapshot.segment).engine.duty ∧
      (s.slot i).state ≠ .active ∨
    (∃ a, (s.seg (s.slot i).snapshot.segment).engine.duty = .run a ∧ a.slot = i) ∧
      (t.seg (s.slot i).snapshot.segment).engine.duty = .up

theorem EngineMoves.kept (h : ∀ g, (t.seg g).engine.duty = (s.seg g).engine.duty) (hn : (s.slot i).state ≠ .active) :
    EngineMoves s t i := ⟨fun g _ => h g, .inl ⟨h _, hn⟩⟩

theorem EngineMoves.duty (m : EngineMoves s t i) (hn : (t.slot i).state ≠ .active) :
    (t.seg (s.slot i).snapshot.segment).engine.duty = (s.seg (s.slot i).snapshot.segment).engine.duty ∧
      ((t.slot i).state = .active ↔ (s.slot i).state = .active) ∨
    (∀ a, (s.seg (s.slot i).snapshot.segment).engine.duty = .run a → a.slot = i) ∧
      (∀ a, (t.seg (s.slot i).snapshot.segment).engine.duty = .run a → a.slot = i) ∧
      ((t.slot i).state = .active ↔ ∃ a, (t.seg (s.slot i).snapshot.segment).engine.duty = .run a) := by
  rcases m.own with ⟨hk, ha⟩ | ⟨⟨a, hr, ha⟩, hu⟩
  · exact .inl ⟨hk, iff_of_false hn ha⟩
  · refine .inr ⟨fun b hb => (run_slot_unique hb hr).trans ha, fun b hb => ?_, iff_of_false hn fun ⟨b, hb⟩ => ?_⟩ <;>
    · rw [hu] at hb; cases hb

theorem EngineMoves.down (m : EngineMoves s t i) (h : s.PoolFits)
    (hd : (t.seg (s.slot i).snapshot.segment).engine.duty = .down) : (s.seg (s.slot i).snapshot.segment).list = [] := by
  rcases m.own with ⟨hk, _⟩ | ⟨_, hu⟩
  · exact h.down _ (duty_eq_down.mp (hk.symm.trans hd))
  · rw [hu] at hd; cases hd

/-! ## The moves -/

/-- A request leaves its list, if it stands in it, and is answered (R31, R36). -/
theorem moved_answered {res : Result} (h : s.PoolFits) (hr : r.request = (s.slot i).request)
    (ho : (s.slot i).occupied = true) (hx : (s.slot i).orphan = false) (hxr : r.orphan = false)
    (hn : (s.slot i).state ≠ .answer) (slots : ∀ j, t.slot j = if j = i then r.answered res else s.slot j)
    (lists : ∀ g, (t.seg g).list = (s.seg g).list.filter fun j => decide (j ≠ i)) (m : EngineMoves s t i)
    (ready : ∀ p j, (t.port p).ready j = (s.port p).ready j + if p = (s.slot i).owner ∧ j = i then 1 else 0)
    (next : t.nextAdmission = s.nextAdmission) : s.Moved t i := by
  have own : t.slot i = r.answered res := by rw [slots, if_pos rfl]
  refine ⟨fun j hj => (slots j).trans (if_neg hj), ?_, ?_, fun g hg => ?_, fun j hj => ?_, ?_, ?_, m.others, ?_, ?_,
    fun p j hj => ?_, fun p => ?_, next⟩
  case refine_1 => exact fun _ => ⟨ho, own ▸ hr, fun _ => hx⟩
  case refine_2 => exact (own ▸ answered_fits res hxr :)
  case refine_3 => exact (lists g).trans (filter_ne_eq_self (not_mem_list h fun _ e => hg e.symm))
  case refine_4 =>
    simp [lists, hj]
  case refine_5 =>
    rw [own, lists]
    simp [Slot.answered, Slot.waiting]
  case refine_6 => exact (lists (s.slot i).snapshot.segment ▸ (h.aged _).filter _ :)
  case refine_7 => exact m.duty (by simp [own, Slot.answered])
  case refine_8 =>
    intro hd
    rw [lists, m.down h hd, List.filter_nil]
  case refine_9 => exact (ready p j).trans (by simp [hj])
  case refine_10 =>
    rw [ready, ready_eq_zero h hn, own]
    have owner : r.owner = (s.slot i).owner := owner_of_request hr
    simp [owner, Slot.answered, eq_comm]

/-- A slot that is in no list is freed; a RESULT that it had in a queue has left it (R22, R37, R38). -/
theorem moved_freed (h : s.PoolFits) (hw : (s.slot i).waiting = false)
    (slots : ∀ j, t.slot j = if j = i then Slot.cleared else s.slot j) (lists : ∀ g, (t.seg g).list = (s.seg g).list)
    (m : EngineMoves s t i) (ready : ∀ p j, (t.port p).ready j = if j = i then 0 else (s.port p).ready j)
    (next : t.nextAdmission = s.nextAdmission) : s.Moved t i := by
  have own : t.slot i = Slot.cleared := by rw [slots, if_pos rfl]
  refine ⟨fun j hj => (slots j).trans (if_neg hj), ?_, ?_, fun g _ => lists g, fun j _ => ?_, ?_, ?_, m.others, ?_, ?_,
    fun p j hj => (ready p j).trans (if_neg hj), fun p => ?_, next⟩
  case refine_1 => exact (own ▸ continues_cleared _ :)
  case refine_2 =>
    show (t.slot i).Fits
    rw [own]; exact Slot.fits_of (by decide)
  case refine_3 => rw [lists]
  case refine_4 =>
    rw [own, lists]
    exact iff_of_false (not_mem_list h fun hw' => by rw [hw] at hw'; cases hw') (by decide)
  case refine_5 => exact (lists (s.slot i).snapshot.segment ▸ h.aged _ :)
  case refine_6 => exact m.duty (by simp [own, Slot.cleared])
  case refine_7 => exact fun hd => (lists _).trans (m.down h hd)
  case refine_8 =>
    rw [ready, own]; simp [Slot.cleared]

theorem mem_placeByAge (age : SlotId → Nat) (i j : SlotId) (l : List SlotId) :
    j ∈ placeByAge age i l ↔ j = i ∨ j ∈ l := by
  induction l with
  | nil => simp [placeByAge]
  | cons k l ih => unfold placeByAge; split <;> simp [ih]; tauto

/-- A slot placed by its age leaves the list in the order of admissions (R32, R41). -/
theorem pairwise_placeByAge {age : SlotId → Nat} {i : SlotId} {l : List SlotId}
    (h : l.Pairwise fun j k => age j < age k) (hne : ∀ j ∈ l, age j ≠ age i) :
    (placeByAge age i l).Pairwise fun j k => age j < age k := by
  induction l with
  | nil => simp [placeByAge]
  | cons k l ih =>
    obtain ⟨hk, hl⟩ := List.pairwise_cons.mp h
    unfold placeByAge
    split
    · next hlt =>
      refine List.pairwise_cons.mpr ⟨fun j hj => ?_, h⟩
      rcases List.mem_cons.mp hj with rfl | hj
      · exact hlt
      · exact hlt.trans (hk j hj)
    · next hge =>
      refine List.pairwise_cons.mpr ⟨fun j hj => ?_, ih hl fun j hj => hne j (List.mem_cons_of_mem _ hj)⟩
      rcases (mem_placeByAge _ _ _ _).mp hj with rfl | hj
      · exact lt_of_le_of_ne (not_lt.mp hge) (hne k List.mem_cons_self)
      · exact hk j hj

/-- A request whose attempt has ended returns to its list (R32, R33, R41). -/
theorem moved_returned (h : s.PoolFits) (ha : (s.slot i).state = .active) (hx : (s.slot i).orphan = false)
    (hr : r.request = (s.slot i).request) (hf : r.Fits) (hw : r.waiting = true)
    (slots : ∀ j, t.slot j = if j = i then r else s.slot j)
    (lists : ∀ g, (t.seg g).list = if g = (s.slot i).snapshot.segment then
      placeByAge (fun j => (s.slot j).admission) i (s.seg g).list else (s.seg g).list)
    (m : EngineMoves s t i) (ready : ∀ p j, (t.port p).ready j = (s.port p).ready j)
    (next : t.nextAdmission = s.nextAdmission) : s.Moved t i := by
  have own : t.slot i = r := by rw [slots, if_pos rfl]
  have place : (t.seg (s.slot i).snapshot.segment).list =
      placeByAge (fun j => (s.slot j).admission) i (s.seg (s.slot i).snapshot.segment).list := by
    rw [lists, if_pos rfl]
  have notAnswer : (s.slot i).state ≠ .answer := by simp [ha]
  have up : (t.seg (s.slot i).snapshot.segment).engine.duty = .up := by
    rcases m.own with ⟨_, hn⟩ | ⟨_, hu⟩
    · exact absurd ha hn
    · exact hu
  refine ⟨fun j hj => (slots j).trans (if_neg hj), ?_, ?_, fun g hg => (lists g).trans (if_neg hg), fun j hj => ?_, ?_, ?_,
    m.others, ?_, fun hd => ?_, fun p j _ => ready p j, fun p => ?_, next⟩
  case refine_1 => exact fun _ => ⟨occupied_of_active ha, own ▸ hr, fun _ => hx⟩
  case refine_2 => exact (own ▸ hf :)
  case refine_3 =>
    rw [place, mem_placeByAge]
    exact or_iff_right hj
  case refine_4 =>
    rw [place, mem_placeByAge, own]
    exact iff_of_true (.inl rfl) hw
  case refine_5 =>
    rw [place]
    refine pairwise_placeByAge (h.aged _) fun j hj e => ?_
    obtain ⟨hj, _⟩ := (h.listed _ _).mp hj
    have := h.distinct j i (occupied_of_waiting hj) (occupied_of_active ha) e
    rw [this, not_waiting_of_active ha] at hj
    cases hj
  case refine_6 =>
    refine m.duty fun e => ?_
    rw [own] at e
    rw [not_waiting_of_active e] at hw
    cases hw
  case refine_7 =>
    have : (t.seg (s.slot i).snapshot.segment).engine.duty = .down := hd
    rw [up] at this; cases this
  case refine_8 =>
    rw [ready, ready_eq_zero h notAnswer, own, if_neg]
    rintro ⟨e, _⟩
    simp [Slot.waiting, e] at hw

/-- A request changes in its place: where it waits it waits on, and its RESULT stays in its queue (R35, R46, R48, R78). -/
theorem moved_inPlace (h : s.PoolFits) (hr : r.request = (s.slot i).request) (ho : (s.slot i).occupied = true)
    (hx : r.orphan = (s.slot i).orphan) (hf : r.Fits) (hw : r.waiting = (s.slot i).waiting)
    (hn : r.state = .answer ↔ (s.slot i).state = .answer)
    (slots : ∀ j, t.slot j = if j = i then r else s.slot j) (lists : ∀ g, (t.seg g).list = (s.seg g).list)
    (duties : ∀ g, g ≠ (s.slot i).snapshot.segment → (t.seg g).engine.duty = (s.seg g).engine.duty)
    (duty : (t.seg (s.slot i).snapshot.segment).engine.duty = (s.seg (s.slot i).snapshot.segment).engine.duty ∧
        (r.state = .active ↔ (s.slot i).state = .active) ∨
      ∃ a b, (s.seg (s.slot i).snapshot.segment).engine.duty = .run a ∧ a.slot = i ∧
        (t.seg (s.slot i).snapshot.segment).engine.duty = .run b ∧ b.slot = i ∧ r.state = .active)
    (ready : ∀ p, (t.port p).ready = (s.port p).ready) (next : t.nextAdmission = s.nextAdmission) :
    s.Moved t i := by
  have own : t.slot i = r := by rw [slots, if_pos rfl]
  refine ⟨fun j hj => (slots j).trans (if_neg hj), ?_, ?_, fun g _ => lists g, fun j _ => ?_, ?_, ?_, duties, ?_,
    fun hd => ?_, fun p j _ => congrFun (ready p) j, fun p => ?_, next⟩
  case refine_1 => exact fun _ => ⟨ho, own ▸ hr, fun hq => by rw [← hx, ← own]; exact hq⟩
  case refine_2 => exact (own ▸ hf :)
  case refine_3 => rw [lists]
  case refine_4 =>
    rw [own, lists, hw, h.listed]
    exact and_iff_left rfl
  case refine_5 => exact (lists (s.slot i).snapshot.segment ▸ h.aged _ :)
  case refine_6 =>
    rw [own]
    rcases duty with hk | ⟨a, b, ha, has, hb, hbs, hact⟩
    · exact .inl hk
    · refine .inr ⟨fun c hc => (run_slot_unique hc ha).trans has, fun c hc => ?_, iff_of_true hact ⟨b, hb⟩⟩
      cases hb.symm.trans hc; exact hbs
  case refine_7 =>
    refine (lists _).trans ?_
    rcases duty with ⟨hk, _⟩ | ⟨a, b, _, _, hb, _⟩
    · exact h.down _ (duty_eq_down.mp (hk.symm.trans hd))
    · cases hb.symm.trans hd
  case refine_8 =>
    rw [ready, own, owner_of_request hr, if_congr (and_congr_left' hn) rfl rfl]
    exact h.queued p i

end

end Sys2Proof.Machine
end

section
/-! SUPPORT. Pool and transfers stay sound (R30 to R36, R42, R48, R54) when requests are withdrawn, admitted, chosen, timed and
freed, and when an engine changes that runs none. -/
namespace Sys2Proof.Machine

variable {s : State} {i : SlotId} {g : SegId} {p : PortId}

/-! ## Counts and results of an answered request -/

/-- A request answered has made one attempt more at most than ended in a deferral or a loss, unless it lost its last (R78). -/
theorem answered_counts {r : Slot} (limit : r.snapshot.retryLimit ≤ 7) (retries : r.retriesUsed ≤ r.snapshot.retryLimit)
    (losses : r.losses ≤ Config.lossLimit) (passed : r.passedOver ≤ Config.promotion)
    (attempts : r.attempts ≤ r.retriesUsed + r.losses + if r.losses < Config.lossLimit then 1 else 0) (res : Result)
    (b : Bool) : (r.answered res).CountsFit b where
  limit := limit
  retries := retries
  losses := losses
  losing h := absurd rfl h
  passed := passed
  attempts := by simpa [Slot.answered] using attempts

theorem CountsFit.answered {r : Slot} {b : Bool} (h : r.CountsFit b) (hn : r.state ≠ .answer) (res : Result) (b' : Bool) :
    (r.answered res).CountsFit b' := by
  have lost := h.losing hn
  refine answered_counts h.limit h.retries h.losses h.passed ?_ res b'
  have := h.attempts
  rw [if_pos lost]
  split at this <;> omega

/-- The result a scheduler writes fits every request (R21, R36). -/
theorem ofScheduler_fits {st : Status} (hst : st ≠ .ok) (r : Slot) : (Result.ofScheduler st).Fits r where
  written := Nat.zero_le _
  ok h := absurd h hst
  failed _ := rfl
  scheduler _ := ⟨rfl, rfl⟩

/-! ## A waiting request withdrawn -/

theorem not_active_of_waiting {r : Slot} (h : r.waiting = true) : r.state ≠ .active := fun e => by
  rw [not_waiting_of_active e] at h; cases h

theorem not_answer_of_waiting {r : Slot} (h : r.waiting = true) : r.state ≠ .answer := fun e => by
  simp [Slot.waiting, e] at h

/-- A waiting request, of which only its deadline may have been marked, is withdrawn (R36, R48). -/
theorem moved_withdraw (h : s.PoolFits) (hw : (s.slot i).waiting = true) {r : Slot} (hr : r.request = (s.slot i).request)
    (hx : r.orphan = (s.slot i).orphan) (st : Status) : s.Moved ((s.setSlot i r).withdraw i st) i := by
  have segment : r.snapshot.segment = (s.slot i).snapshot.segment := congrArg Snapshot.segment (snapshot_of_request hr)
  have seg k : ((s.setSlot i r).unlist i).seg k = (s.unlist i).seg k := by
    simp only [seg_unlist, slot_setSlot, segment, seg_setSlot]
  have slot j : ((s.setSlot i r).unlist i).slot j = if j = i then r else s.slot j := by
    rw [State.unlist, slot_setSeg, slot_setSlot_eq]
  have port q : ((s.setSlot i r).unlist i).port q = s.port q := by rw [State.unlist, port_setSeg, port_setSlot]
  have vacant := not_orphan_of_waiting (h.slots i) hw
  refine moved_answered (res := .ofScheduler st) h hr (occupied_of_waiting hw) vacant (hx.trans vacant)
    (not_answer_of_waiting hw) (fun j => ?_) (fun k => ?_) (.kept (fun k => ?_) (not_active_of_waiting hw)) (fun q j => ?_) ?_
  · rw [State.withdraw, slot_answer, slot, slot, if_pos rfl]
    split <;> rfl
  · rw [State.withdraw, seg_answer, seg, list_unlist h]
  · rw [State.withdraw, seg_answer, seg, duty_unlist]
  · rw [State.withdraw, ready_answer, port, slot, if_pos rfl, owner_of_request hr]
  · rw [State.withdraw, nextAdmission_answer, State.unlist, nextAdmission_setSeg, nextAdmission_setSlot]

theorem slot_withdrawn (s : State) (i : SlotId) (st : Status) (j : SlotId) :
    (s.withdraw i st).slot j = if j = i then (s.slot i).answered (.ofScheduler st) else s.slot j := by
  rw [State.withdraw, slot_answer, State.unlist, slot_setSeg, slot_setSeg]

theorem sound_withdrawMarked {st : Status} (h : s.Sound) (hw : (s.slot i).waiting = true) {r : Slot}
    (hr : r.request = (s.slot i).request) (hx : r.orphan = (s.slot i).orphan)
    (hc : ∀ b, (s.slot i).CountsFit b → (r.answered (.ofScheduler st)).CountsFit b) (hst : st ≠ .ok) :
    ((s.setSlot i r).withdraw i st).Sound := by
  have m := moved_withdraw h.pool hw hr hx st
  have own : ((s.setSlot i r).withdraw i st).slot i = r.answered (.ofScheduler st) := by
    rw [slot_withdrawn, if_pos rfl, slot_setSlot]
  refine ⟨h.pool.of_moved m, h.transfers.of_moved h.pool m (fun _ => ?_) (fun a hrun ha => ?_) fun res hres => ?_⟩
  · rw [own]
    exact hc _ ((h.transfers.counts i (occupied_of_waiting hw)).of_not_active (not_active_of_waiting hw) _)
  · have := ((h.pool.of_moved m).running _ a hrun).1
    rw [ha, own] at this
    cases this
  · rw [own] at hres ⊢
    cases hres
    exact ofScheduler_fits hst _

/-- A waiting request withdrawn leaves pool and transfers sound (R36, R42). -/
theorem sound_withdraw {st : Status} (h : s.Sound) (hw : (s.slot i).waiting = true) (hst : st ≠ .ok) :
    (s.withdraw i st).Sound := by
  have := sound_withdrawMarked (r := s.slot i) h hw rfl rfl
    (fun b hc => CountsFit.answered hc (not_answer_of_waiting hw) _ b) hst
  rwa [setSlot_slot] at this

/-- Several waiting requests withdrawn one after another (R17, R53, R54). -/
theorem sound_withdrawAll {st : Status} (hst : st ≠ .ok) (l : List SlotId) (hl : l.Nodup) (s : State) (h : s.Sound)
    (hw : ∀ i ∈ l, (s.slot i).waiting = true) : (l.foldl (fun s i => s.withdraw i st) s).Sound := by
  induction l generalizing s with
  | nil => exact h
  | cons i l ih =>
    obtain ⟨hi, hl⟩ := List.nodup_cons.mp hl
    refine ih hl _ (sound_withdraw h (hw i List.mem_cons_self) hst) fun j hj => ?_
    rw [slot_withdrawn, if_neg fun e : j = i => hi (e ▸ hj)]
    exact hw j (List.mem_cons_of_mem i hj)

theorem slot_withdrawAll (st : Status) (l : List SlotId) (s : State) (j : SlotId) :
    ((l.foldl (fun s i => s.withdraw i st) s).slot j).waiting = true → j ∉ l ∧ (s.slot j).waiting = true ∧
      ((l.foldl (fun s i => s.withdraw i st) s).slot j) = s.slot j := by
  induction l generalizing s with
  | nil => exact fun h => ⟨List.not_mem_nil, h, rfl⟩
  | cons i l ih =>
    intro h
    obtain ⟨hj, hw, he⟩ := ih _ h
    rw [slot_withdrawn] at hw he
    by_cases e : j = i
    · rw [if_pos e] at hw; cases hw
    · rw [if_neg e] at hw he
      exact ⟨fun hm => (List.mem_cons.mp hm).elim e hj, hw, he⟩

theorem nodup_list (h : s.PoolFits) (g : SegId) : (s.seg g).list.Nodup :=
  (h.aged g).imp fun hlt e => absurd hlt (by rw [e]; exact lt_irrefl _)

theorem sound_purge (h : s.Sound) (u : TargetId) : (s.purge u).Sound :=
  sound_withdrawAll (by decide) _ (nodup_purgeOrder h.pool) _ (h.of_pool rfl) fun i hi =>
    ((mem_purgeOrder h.pool).mp hi).1

/-! ## Engines that run no attempt -/

/-- An engine that runs no attempt may turn to any state in which it runs none; to one that serves no request only with its
list empty (R54, R98). -/
theorem sound_setSeg {v : Seg} (h : s.Sound) (hr : (s.seg g).engine.isRun = false) (hl : v.list = (s.seg g).list)
    (hv : v.engine.isRun = false) (hd : v.engine.down = true → (s.seg g).list = []) : (s.setSeg g v).Sound := by
  have idle i (ha : (s.slot i).state = .active) : (s.slot i).snapshot.segment ≠ g := by
    intro e
    obtain ⟨a, hrun, _⟩ := h.pool.active i ha
    rw [e] at hrun
    rw [hrun] at hr
    cases hr
  have engine {k : SegId} {a : Attempt} (hk : ((s.setSeg g v).seg k).engine = .run a) :
      k ≠ g ∧ (s.seg k).engine = .run a := by
    rw [seg_setSeg_eq] at hk
    split at hk
    · rw [hk] at hv; cases hv
    · next e => exact ⟨e, hk⟩
  have list k : ((s.setSeg g v).seg k).list = (s.seg k).list := by
    rw [seg_setSeg_eq]; split
    · next e => rw [hl, e]
    · rfl
  have opened i (ha : (s.slot i).state = .active) : (s.setSeg g v).opened i = s.opened i := by
    unfold State.opened
    rw [slot_setSeg, seg_setSeg_ne _ _ (idle i ha)]
  constructor
  · constructor
    · simpa using h.pool.slots
    · simpa using h.pool.numbered
    · simpa using h.pool.distinct
    · simpa [list] using h.pool.listed
    · simpa [list] using h.pool.aged
    · intro k a hk
      rw [slot_setSeg]
      exact h.pool.running k a (engine hk).2
    · intro i ha
      rw [slot_setSeg] at ha ⊢
      rw [seg_setSeg_ne _ _ (idle i ha)]
      exact h.pool.active i ha
    · intro k hk
      rw [list]
      rw [seg_setSeg_eq] at hk
      split at hk
      · next e => rw [e]; exact hd hk
      · exact h.pool.down k hk
    · simpa using h.pool.queued
    · intro q; simpa [State.occupied] using h.pool.window q
    · simpa using h.pool.tags
  · constructor
    · simpa using h.transfers.fields
    · intro i hi
      rw [slot_setSeg] at hi ⊢
      by_cases ha : (s.slot i).state = .active
      · rw [opened i ha]; exact h.transfers.counts i hi
      · exact (h.transfers.counts i hi).of_not_active ha _
    · intro k a hk
      rw [slot_setSeg]
      exact h.transfers.attempts k a (engine hk).2
    · simpa using h.transfers.results

theorem sound_modSeg {f : Seg → Seg} (h : s.Sound) (hr : (s.seg g).engine.isRun = false)
    (hl : (f (s.seg g)).list = (s.seg g).list) (hv : (f (s.seg g)).engine.isRun = false)
    (hd : (f (s.seg g)).engine.down = true → (s.seg g).list = []) : (s.modSeg g f).Sound :=
  sound_setSeg h hr hl hv hd

end Sys2Proof.Machine
end

section
/-! SUPPORT. The arbiter (R43 to R47): which requests are eligible, which is the best, and which are passed over. -/
namespace Sys2Proof.Machine

/-! ## Places in a list -/

theorem ahead_cons {l : List SlotId} {k j i : SlotId} : Ahead (k :: l) j i ↔ k = j ∧ i ∈ l ∨ Ahead l j i := by
  constructor
  · rintro ⟨_ | ⟨x, a⟩, b, c, h⟩
    · obtain ⟨rfl, rfl⟩ := List.cons.inj h
      exact .inl ⟨rfl, by simp⟩
    · obtain ⟨rfl, rfl⟩ := List.cons.inj h
      exact .inr ⟨a, b, c, rfl⟩
  · rintro (⟨rfl, hi⟩ | ⟨a, b, c, rfl⟩)
    · obtain ⟨b, c, rfl⟩ := List.append_of_mem hi
      exact ⟨[], b, c, rfl⟩
    · exact ⟨k :: a, b, c, rfl⟩

theorem not_ahead_nil {j i : SlotId} : ¬Ahead [] j i := by
  rintro ⟨a, b, c, h⟩
  simp at h

theorem mem_of_ahead {l : List SlotId} {j i : SlotId} (h : Ahead l j i) : j ∈ l ∧ i ∈ l := by
  obtain ⟨a, b, c, rfl⟩ := h
  simp

/-- What is passed on the way to `i` in a selection from a list stands ahead of `i` in the list. -/
theorem mem_takeWhile_filter {f : SlotId → Bool} {l : List SlotId} (hl : l.Nodup) {i j : SlotId} (hi : i ∈ l)
    (hf : f i = true) : j ∈ (l.filter f).takeWhile (fun k => decide (k ≠ i)) ↔ f j = true ∧ Ahead l j i := by
  induction l with
  | nil => cases hi
  | cons k l ih =>
    obtain ⟨hk, hl⟩ := List.nodup_cons.mp hl
    rw [ahead_cons]
    rcases List.mem_cons.mp hi with rfl | hil
    · have : ¬Ahead l j i := fun h => hk (mem_of_ahead h).2
      simp [hf, hk, this]
    · have hki : k ≠ i := fun e => hk (e ▸ hil)
      rw [List.filter_cons]
      split
      · next hfk =>
        rw [List.takeWhile_cons, if_pos (by simpa using hki), List.mem_cons, ih hl hil]
        constructor
        · rintro (rfl | ⟨hj, ha⟩)
          · exact ⟨hfk, .inl ⟨rfl, hil⟩⟩
          · exact ⟨hj, .inr ha⟩
        · rintro ⟨hj, ⟨rfl, _⟩ | ha⟩
          · exact .inl rfl
          · exact .inr ⟨hj, ha⟩
      · next hfk =>
        rw [ih hl hil]
        constructor
        · exact fun ⟨hj, ha⟩ => ⟨hj, .inr ha⟩
        · rintro ⟨hj, ⟨rfl, _⟩ | ha⟩
          · exact absurd hj hfk
          · exact ⟨hj, ha⟩

/-! ## Eligible requests -/

variable {s : State} {g : SegId} {i j : SlotId}

theorem chained_eq_false {older : List SlotId} : s.chained older i = false ↔
    ∀ j ∈ older, ¬((s.slot j).owner = (s.slot i).owner ∧ (s.slot j).target = (s.slot i).target) := by
  simp [State.chained]

/-- The request is PENDING and no request ahead of it in the list has its owner and target (R43). -/
def State.unchained (s : State) (l : List SlotId) (i : SlotId) : Prop :=
  (s.slot i).state = .pending ∧
    ∀ j, Ahead l j i → ¬((s.slot j).owner = (s.slot i).owner ∧ (s.slot j).target = (s.slot i).target)

open Classical in
/-- The scheduler's walk along its list selects the requests that no older one holds back (R43). -/
theorem eligibleFrom_eq (older l : List SlotId) (hn : (older ++ l).Nodup) :
    s.eligibleFrom older l = l.filter fun i => decide (s.unchained (older ++ l) i) := by
  induction l generalizing older with
  | nil => rfl
  | cons i l ih =>
    have ahead : ∀ j, Ahead (older ++ i :: l) j i ↔ j ∈ older := by
      intro j
      have hi : i ∉ older ∧ i ∉ l := by
        have := List.nodup_append.mp hn
        exact ⟨fun h => this.2.2 i h i List.mem_cons_self rfl, (List.nodup_cons.mp this.2.1).1⟩
      have main : ∀ o : List SlotId, i ∉ o → (Ahead (o ++ i :: l) j i ↔ j ∈ o) := by
        intro o ho
        induction o with
        | nil => simpa [ahead_cons, hi.2] using fun h : Ahead l j i => hi.2 (mem_of_ahead h).2
        | cons k o iho =>
          rw [List.cons_append, ahead_cons, iho fun h => ho (List.mem_cons_of_mem _ h), List.mem_cons]
          simp [eq_comm]
      exact main older hi.1
    have here : ((s.slot i).state = .pending ∧ s.chained older i = false) ↔ s.unchained (older ++ i :: l) i := by
      simp only [State.unchained, chained_eq_false, ahead]
    have assoc : older ++ [i] ++ l = older ++ i :: l := by simp
    rw [State.eligibleFrom, ih (older ++ [i]) (assoc ▸ hn), assoc, List.filter_cons]
    simp only [here, decide_eq_true_eq]

open Classical in
/-- The eligible requests, in the order of the list (R43). -/
theorem eligible_eq (h : s.PoolFits) (g : SegId) : s.eligible g = (s.seg g).list.filter fun i => decide (s.IsEligible g i) := by
  unfold State.eligible
  split
  · next held =>
    refine (List.filter_eq_nil_iff.mpr fun i _ hi => ?_).symm
    obtain ⟨_, _, hheld, _⟩ := of_decide_eq_true hi
    rw [held] at hheld; cases hheld
  · next held =>
    rw [eligibleFrom_eq [] _ (nodup_list h g)]
    refine List.filter_congr fun i hi => decide_eq_decide.mpr ?_
    simp only [State.IsEligible, State.unchained, List.nil_append, hi, true_and]
    simp [held]

theorem mem_eligible (h : s.PoolFits) : i ∈ s.eligible g ↔ s.IsEligible g i := by
  classical
  rw [eligible_eq h, List.mem_filter, decide_eq_true_eq]
  exact and_iff_right_of_imp And.left

/-- The requests passed over are the eligible ones ahead of the chosen one (R46). -/
theorem mem_passed (h : s.PoolFits) (hi : s.IsEligible g i) :
    j ∈ s.passed g i ↔ s.IsEligible g j ∧ Ahead (s.seg g).list j i := by
  classical
  have nodup := nodup_list h g
  rw [State.passed, eligible_eq h, mem_takeWhile_filter nodup hi.1 (decide_eq_true hi), decide_eq_true_eq]

theorem nodup_passed (h : s.PoolFits) (g : SegId) (i : SlotId) : (s.passed g i).Nodup := by
  classical
  have nodup := nodup_list h g
  rw [State.passed, eligible_eq h]
  exact (nodup.filter _).sublist (List.takeWhile_sublist _)

theorem not_mem_passed (s : State) (g : SegId) (i : SlotId) : i ∉ s.passed g i := fun h => by
  simpa using List.mem_takeWhile_imp h

/-! ## The best of them -/

theorem rank_eq (r : Slot) : r.effectivePriority = r.rank := by
  unfold Slot.effectivePriority Slot.rank
  by_cases low : r.passedOver < 4
  · rw [if_pos low, if_neg (show ¬Config.promotion ≤ r.passedOver from not_le.mpr low)]
  · rw [if_neg low, if_pos (show Config.promotion ≤ r.passedOver from not_lt.mp low)]
    rfl

/-- The arbiter's walk ends at a request that no other of the list outranks, and no earlier one equals (R45). -/
theorem bestFrom_spec (s : State) (b : SlotId) (l : List SlotId) (hl : (b :: l).Nodup) :
    s.bestFrom b l ∈ b :: l ∧ ∀ j ∈ b :: l, j ≠ s.bestFrom b l →
      (s.slot j).rank < (s.slot (s.bestFrom b l)).rank ∨
      (s.slot j).rank = (s.slot (s.bestFrom b l)).rank ∧ Ahead (b :: l) (s.bestFrom b l) j := by
  induction l generalizing b with
  | nil => exact ⟨List.mem_cons_self, fun j hj hne => absurd (List.mem_singleton.mp hj) hne⟩
  | cons i l ih =>
    have hb : b ∉ i :: l := (List.nodup_cons.mp hl).1
    have hl' : (i :: l).Nodup := (List.nodup_cons.mp hl).2
    rw [State.bestFrom, rank_eq, rank_eq]
    split
    · next hlt =>
      obtain ⟨hm, hbest⟩ := ih i hl'
      refine ⟨List.mem_cons_of_mem _ hm, fun j hj hne => ?_⟩
      rcases List.mem_cons.mp hj with rfl | hj
      · refine .inl (lt_of_lt_of_le hlt ?_)
        by_cases hi : i = s.bestFrom i l
        · rw [← hi]
        · rcases hbest i List.mem_cons_self hi with h | ⟨h, _⟩
          · exact h.le
          · exact h.le
      · exact (hbest j hj hne).imp id fun ⟨h, ha⟩ => ⟨h, ahead_cons.mpr (.inr ha)⟩
    · next hge =>
      have hbl : (b :: l).Nodup :=
        List.nodup_cons.mpr ⟨fun h => hb (List.mem_cons_of_mem _ h), (List.nodup_cons.mp hl').2⟩
      obtain ⟨hm, hbest⟩ := ih b hbl
      have up {j} (ha : Ahead (b :: l) (s.bestFrom b l) j) : Ahead (b :: i :: l) (s.bestFrom b l) j := by
        rcases ahead_cons.mp ha with ⟨e, hj⟩ | ha
        · exact ahead_cons.mpr (.inl ⟨e, List.mem_cons_of_mem _ hj⟩)
        · exact ahead_cons.mpr (.inr (ahead_cons.mpr (.inr ha)))
      refine ⟨?_, fun j hj hne => ?_⟩
      · rcases List.mem_cons.mp hm with e | hm
        · rw [e]; exact List.mem_cons_self
        · exact List.mem_cons_of_mem _ (List.mem_cons_of_mem _ hm)
      · by_cases hji : j = i
        · subst hji
          by_cases hbb : b = s.bestFrom b l
          · rw [← hbb]
            rcases (not_lt.mp hge).lt_or_eq with h | h
            · exact .inl h
            · exact .inr ⟨h, ahead_cons.mpr (.inl ⟨rfl, List.mem_cons_self⟩)⟩
          · rcases hbest b List.mem_cons_self hbb with h | ⟨_, ha⟩
            · exact .inl (lt_of_le_of_lt (not_lt.mp hge) h)
            · rcases ahead_cons.mp ha with ⟨e, _⟩ | ha
              · exact absurd e hbb
              · exact absurd (List.mem_cons_of_mem _ (mem_of_ahead ha).2) hb
        · refine (hbest j ?_ hne).imp id fun ⟨h, ha⟩ => ⟨h, up ha⟩
          rcases List.mem_cons.mp hj with e | hj
          · rw [e]; exact List.mem_cons_self
          · exact List.mem_cons_of_mem _ ((List.mem_cons.mp hj).resolve_left hji)

theorem ahead_of_filter {f : SlotId → Bool} {l : List SlotId} {j i : SlotId} (h : Ahead (l.filter f) j i) :
    Ahead l j i := by
  induction l with
  | nil => exact absurd h not_ahead_nil
  | cons k l ih =>
    rw [List.filter_cons] at h
    rw [ahead_cons]
    split at h
    · rcases ahead_cons.mp h with ⟨e, hi⟩ | h
      · exact .inl ⟨e, (List.mem_filter.mp hi).1⟩
      · exact .inr (ih h)
    · exact .inr (ih h)

/-- The request the arbiter takes is eligible, and every other eligible one has a lower rank, or the same and is younger
(R45). -/
theorem best_spec (h : s.PoolFits) (hb : s.best g = some i) : s.IsEligible g i ∧
    ∀ j, s.IsEligible g j → j ≠ i → (s.slot j).rank < (s.slot i).rank ∨
      (s.slot j).rank = (s.slot i).rank ∧ Ahead (s.seg g).list i j := by
  classical
  unfold State.best at hb
  split at hb
  · cases hb
  · next k rest heq =>
    cases hb
    have nodup := nodup_list h g
    have hnd : (k :: rest).Nodup := by rw [← heq, eligible_eq h]; exact nodup.filter _
    obtain ⟨hm, hbest⟩ := bestFrom_spec s k rest hnd
    rw [← heq] at hm
    refine ⟨(mem_eligible h).mp hm, fun j hj hne => ?_⟩
    refine (hbest j (heq ▸ (mem_eligible h).mpr hj) hne).imp id fun ⟨e, ha⟩ => ⟨e, ?_⟩
    rw [← heq, eligible_eq h] at ha
    exact ahead_of_filter ha

theorem best_eq_none (h : s.PoolFits) : s.best g = none ↔ ∀ i, ¬s.IsEligible g i := by
  have nil : s.best g = none ↔ s.eligible g = [] := by
    unfold State.best
    split
    · next e => simp [e]
    · next e => simp [e]
  rw [nil, List.eq_nil_iff_forall_not_mem]
  exact forall_congr' fun i => not_congr (mem_eligible h)

end Sys2Proof.Machine
end

section
/-! SUPPORT. Pool and transfers stay sound through a choice (R30, R46, R47), the timers of requests (R35, R48), the release of an
answered slot (R37), and the entries into IDLE and FAULT (R54, R103, R107). -/
namespace Sys2Proof.Machine

variable {s : State} {i : SlotId} {g : SegId} {p : PortId}

/-! ## Changes in place -/

/-- A record that changes only in what a choice, a timer or a port restart marks keeps pool and transfers sound. -/
theorem sound_setSlot {r : Slot} (h : s.Sound) (ho : (s.slot i).occupied = true) (hr : r.request = (s.slot i).request)
    (hx : r.orphan = (s.slot i).orphan) (hf : r.Fits) (hw : r.waiting = (s.slot i).waiting)
    (hn : r.state = .answer ↔ (s.slot i).state = .answer) (ha : r.state = .active ↔ (s.slot i).state = .active)
    (hc : r.CountsFit (s.opened i)) (hres : r.result = (s.slot i).result) : (s.setSlot i r).Sound := by
  have segment : r.snapshot.segment = (s.slot i).snapshot.segment := congrArg Snapshot.segment (snapshot_of_request hr)
  have m : s.Moved (s.setSlot i r) i := moved_inPlace h.pool hr ho hx hf hw hn (fun j => slot_setSlot_eq s i j r)
    (fun _ => by simp) (fun _ _ => by simp) (.inl ⟨by simp, ha⟩) (fun _ => by simp) rfl
  refine ⟨h.pool.of_moved m, h.transfers.of_moved h.pool m (fun _ => ?_) (fun a hrun e => ?_) fun res hr' => ?_⟩
  · have opened : (s.setSlot i r).opened i = s.opened i := by
      unfold State.opened; rw [slot_setSlot, segment, seg_setSlot]
    rw [opened, slot_setSlot]; exact hc
  · rw [seg_setSlot] at hrun
    rw [slot_setSlot]
    refine Attempt.Fits.of_request ?_ hr
    rw [← e]
    exact h.transfers.attempts _ a hrun
  · rw [slot_setSlot] at hr' ⊢
    exact (h.transfers.results i res (hres ▸ hr')).of_request hr

/-- The expiry of a retry timer (R35). -/
theorem sound_retry (h : s.Sound) (hd : (s.slot i).state = .deferred) :
    (s.modSlot i fun r => { r with state := .pending, retryTimer := none }).Sound := by
  have f := h.pool.slots i
  have hw : (s.slot i).waiting = true := by simp [Slot.waiting, hd]
  have waits : ({ s.slot i with state := .pending, retryTimer := none } : Slot).waiting = true := by simp [Slot.waiting]
  have notAnswer : (s.slot i).state ≠ .answer := not_answer_of_waiting hw
  refine sound_setSlot h (occupied_of_waiting hw) rfl rfl ⟨nofun, fun ho => ?_, ?_, ?_, fun _ => .inl waits, fun hp => ?_⟩
    (waits.trans hw.symm) (by simp [notAnswer]) (by simp [hd]) ?_ rfl
  · rw [not_orphan_of_waiting f hw] at ho; cases ho
  · simpa [notAnswer] using f.result
  · simp
  · rw [f.deadline hp] at hw; cases hw
  · have c := h.transfers.counts i (occupied_of_waiting hw)
    refine ⟨c.limit, c.retries, c.losses, fun _ => c.losing notAnswer, c.passed, ?_⟩
    have := c.attempts
    simpa [hd] using this

/-- The expiry of a lifetime timer (R48). -/
theorem sound_expireLifetime (h : s.Sound) (ht : (s.slot i).lifetimeTimer.isSome = true) : (s.expireLifetime i).Sound := by
  have f := h.pool.slots i
  unfold State.expireLifetime
  dsimp only [State.modSlot]
  split
  · next hw =>
    rw [slot_setSlot] at hw
    exact sound_withdrawMarked h (show (s.slot i).waiting = true from hw) rfl rfl
      (fun b hc => CountsFit.answered (b := b) (r := { s.slot i with deadlinePassed := true, lifetimeTimer := none })
        ⟨hc.limit, hc.retries, hc.losses, hc.losing, hc.passed, hc.attempts⟩ (not_answer_of_waiting hw) _ b) (by decide)
  · next hw =>
    rw [slot_setSlot] at hw
    have hwf : (s.slot i).waiting = false := Bool.eq_false_iff.mpr hw
    have hact : (s.slot i).state = .active := (f.lifetime ht).resolve_left (by simp [hwf])
    refine sound_setSlot h (occupied_of_active hact) rfl rfl ⟨fun e => ?_, f.orphan, f.result, f.retry, nofun, fun _ => hwf⟩ rfl
      Iff.rfl Iff.rfl ?_ rfl
    · rw [show (s.slot i).state = .free from e] at hact; cases hact
    · have c := h.transfers.counts i (occupied_of_active hact)
      exact ⟨c.limit, c.retries, c.losses, c.losing, c.passed, c.attempts⟩

/-- A waiting request passed over (R46). -/
theorem sound_passOver (h : s.Sound) (hw : (s.slot i).waiting = true) : (s.modSlot i Slot.passOver).Sound := by
  have f := h.pool.slots i
  have c := h.transfers.counts i (occupied_of_waiting hw)
  refine sound_setSlot h (occupied_of_waiting hw) rfl rfl ⟨fun e => ?_, f.orphan, f.result, f.retry, f.lifetime, f.deadline⟩
    rfl Iff.rfl Iff.rfl ⟨c.limit, c.retries, c.losses, c.losing, ?_, c.attempts⟩ rfl
  · simp [Slot.waiting, show (s.slot i).state = .free from e] at hw
  · have := c.passed
    unfold Slot.passOver Config.promotion at *
    dsimp only
    split <;> omega

theorem sound_passOverAll (l : List SlotId) (hl : l.Nodup) (s : State) (h : s.Sound)
    (hw : ∀ i ∈ l, (s.slot i).waiting = true) : (l.foldl (fun s j => s.modSlot j Slot.passOver) s).Sound := by
  induction l generalizing s with
  | nil => exact h
  | cons i l ih =>
    obtain ⟨hi, hl⟩ := List.nodup_cons.mp hl
    refine ih hl _ (sound_passOver h (hw i List.mem_cons_self)) fun j hj => ?_
    show ((s.setSlot i (s.slot i).passOver).slot j).waiting = true
    rw [slot_setSlot_ne _ _ fun e : j = i => hi (e ▸ hj)]
    exact hw j (List.mem_cons_of_mem i hj)

/-! ## A choice -/

/-- What passing over leaves: each request passed over is so once, and everything but the records stands (R46). -/
theorem slot_passOverAll (l : List SlotId) (hl : l.Nodup) (s : State) (j : SlotId) :
    (l.foldl (fun s j => s.modSlot j Slot.passOver) s).slot j = if j ∈ l then (s.slot j).passOver else s.slot j := by
  induction l generalizing s with
  | nil => simp
  | cons i l ih =>
    obtain ⟨hi, hl⟩ := List.nodup_cons.mp hl
    rw [List.foldl_cons, ih hl]
    simp only [State.modSlot, slot_setSlot_eq]
    by_cases e : j = i
    · simp [e, hi]
    · simp [e]

theorem passOverAll_eq (l : List SlotId) (s : State) : l.foldl (fun s j => s.modSlot j Slot.passOver) s =
    { s with slots := (l.foldl (fun s j => s.modSlot j Slot.passOver) s).slots } := by
  induction l generalizing s with
  | nil => rfl
  | cons i l ih => exact ih (s.modSlot i Slot.passOver)

/-- An attempt fits its request as the choice begins it (R67). -/
theorem begin_fits (i : SlotId) (r : Slot) : (Attempt.begin i).Fits r where
  phase := by simp [Attempt.begin, Slot.phases]
  written := Nat.zero_le _
  opened _ := ⟨rfl, rfl⟩
  restarted := nofun
  followed := nofun
  failed := nofun
  early _ := ⟨rfl, rfl⟩
  writing := nofun
  turning _ h := by rcases h with h | h <;> cases h
  reading := nofun
  stopping := nofun

/-- A PENDING request becomes ACTIVE on an engine that runs none (R30, R47). -/
theorem sound_activate (h : s.Sound) (hup : (s.seg g).engine.duty = .up) (hi : i ∈ (s.seg g).list)
    (hp : (s.slot i).state = .pending) :
    ((s.modSlot i fun r => { r with state := .active }).modSeg g fun v =>
      { v with list := v.list.filter fun j => decide (j ≠ i), engine := .run (Attempt.begin i) }).Sound := by
  generalize ht : ((s.modSlot i fun r => { r with state := .active }).modSeg g fun v =>
      { v with list := v.list.filter fun j => decide (j ≠ i), engine := .run (Attempt.begin i) }) = t
  obtain ⟨hw, hg⟩ := (h.pool.listed g i).mp hi
  subst hg
  have f := h.pool.slots i
  have slots j : t.slot j = if j = i then { s.slot i with state := .active } else s.slot j := by
    rw [← ht, State.modSeg, slot_setSeg, State.modSlot, slot_setSlot_eq]
  have own : t.slot i = { s.slot i with state := .active } := by rw [slots, if_pos rfl]
  have seg : t.seg (s.slot i).snapshot.segment = (s.seg (s.slot i).snapshot.segment).retime
      { s.seg (s.slot i).snapshot.segment with
        list := (s.seg (s.slot i).snapshot.segment).list.filter fun j => decide (j ≠ i)
        engine := .run (Attempt.begin i) } := by
    rw [← ht, seg_modSeg, State.modSlot, seg_setSlot]
  have other k (hk : k ≠ (s.slot i).snapshot.segment) : t.seg k = s.seg k := by
    rw [← ht, seg_modSeg_ne hk, State.modSlot, seg_setSlot]
  have port q : t.port q = s.port q := by
    rw [← ht, State.modSeg, port_setSeg, State.modSlot, port_setSlot]
  have m : s.Moved t i := by
    refine ⟨fun j hj => (slots j).trans (if_neg hj), ?_, ?_, fun k hk => by rw [other k hk], fun j hj => ?_, ?_, ?_,
      fun k hk => by rw [other k hk], .inr ⟨fun a ha => ?_, fun a ha => ?_, ?_⟩, fun hd => ?_, fun q j _ => by rw [port],
      fun q => ?_, ?_⟩
    · rw [own]; exact fun _ => ⟨occupied_of_waiting hw, rfl, id⟩
    · rw [own]
      refine ⟨nofun, fun _ => rfl, ?_, ?_, fun _ => .inr rfl, fun _ => rfl⟩
      · simpa [hp] using f.result
      · simpa [hp] using f.retry
    · rw [seg]; simp [hj]
    · rw [seg, own]; simp [Slot.waiting]
    · rw [seg]; exact (h.pool.aged _).filter _
    · rw [hup] at ha; cases ha
    · rw [seg] at ha; cases ha; rfl
    · rw [seg, own]; exact iff_of_true rfl ⟨_, rfl⟩
    · rw [seg] at hd; cases hd
    · rw [port, ready_eq_zero h.pool (by simp [hp]), own]; simp
    · rw [← ht, State.modSeg, nextAdmission_setSeg]; rfl
  refine ⟨h.pool.of_moved m, h.transfers.of_moved h.pool m (fun _ => ?_) (fun a hrun _ => ?_) fun res hres => ?_⟩
  · have c := h.transfers.counts i (occupied_of_waiting hw)
    have opened : t.opened i = false := by
      rw [opened_eq, own, show ({ s.slot i with state := .active } : Slot).snapshot = (s.slot i).snapshot from rfl, seg]; rfl
    rw [own, opened]
    refine ⟨c.limit, c.retries, c.losses, fun _ => c.losing (by simp [hp]), c.passed, ?_⟩
    have := c.attempts
    simpa [hp] using this
  · rw [seg] at hrun
    cases hrun
    exact begin_fits i _
  · rw [own] at hres
    have : (s.slot i).result.isSome = true := by rw [show (s.slot i).result = some res from hres]; rfl
    rw [f.result, hp] at this
    cases this

/-- The arbiter takes an eligible request (R30, R46, R47). -/
theorem sound_choose (h : s.Sound) (hup : (s.seg g).engine.duty = .up) (hi : s.IsEligible g i) : (s.choose g i).Sound := by
  have eq := passOverAll_eq (s.passed g i) s
  have passed := sound_passOverAll _ (nodup_passed h.pool g i) s h fun j hj =>
    ((h.pool.listed g j).mp ((mem_passed h.pool hi).mp hj).1.1).1
  have slot := slot_passOverAll _ (nodup_passed h.pool g i) s i
  rw [if_neg (not_mem_passed s g i)] at slot
  unfold State.choose
  dsimp only
  generalize (s.passed g i).foldl (fun s j => s.modSlot j Slot.passOver) s = t at eq passed slot ⊢
  have seg : t.seg g = s.seg g := by rw [eq]; cases g <;> rfl
  exact sound_activate passed (seg ▸ hup) (seg ▸ hi.1) (slot ▸ hi.2.1)

/-! ## A RESULT transmitted -/

/-- The completion of a RESULT frees its slot (R37, R161). -/
theorem sound_released (h : s.Sound) {item : Item} {rest : List Item} (hq : (s.port p).queue = item :: rest) (f : Port → Port)
    (hf : ∀ v, (f v).queue = rest) : ((s.modPort p f).releaseItem p item).Sound := by
  cases item with
  | entry e =>
    refine h.of_pool ((pool_modPort rfl).trans (pool_modPort (funext fun i => ?_)))
    simp [Port.ready, hf, hq]
  | result i =>
    have count q j := h.pool.queued q j
    have hi := count p i
    rw [hq, List.count_cons_self] at hi
    obtain ⟨ha, ho⟩ : (s.slot i).state = .answer ∧ (s.slot i).owner = p := by
      by_contra hn; rw [if_neg hn] at hi; omega
    have hw : (s.slot i).waiting = false := by simp [Slot.waiting, ha]
    have m : s.Moved ((s.modPort p f).releaseItem p (.result i)) i := by
      refine moved_freed h.pool hw (fun j => slot_setSlot_eq _ i j _) (fun k => by simp [State.releaseItem, State.releaseSlot, State.modPort])
        (.kept (fun k => by simp [State.releaseItem, State.releaseSlot, State.modPort]) (by simp [ha])) (fun q j => ?_) rfl
      show ((s.modPort p f).port q).ready j = _
      rw [State.modPort, port_setPort_eq]
      by_cases hqp : q = p
      · rw [if_pos hqp, Port.ready, hf]
        by_cases hj : j = i
        · rw [if_pos hj, hj]; rw [if_pos ⟨ha, ho⟩] at hi; omega
        · rw [if_neg hj, hqp, Port.ready, hq, List.count_cons_of_ne (by simpa using fun e : i = j => hj e.symm)]
      · rw [if_neg hqp]
        by_cases hj : j = i
        · rw [if_pos hj, hj]; exact (count q i).trans (if_neg fun e => hqp (e.2.symm.trans ho))
        · rw [if_neg hj]
    have own : ((s.modPort p f).releaseItem p (.result i)).slot i = Slot.cleared := slot_setSlot _ _ _
    refine ⟨h.pool.of_moved m, h.transfers.of_moved h.pool m (fun hocc => ?_) (fun a hrun e => ?_) fun res hres => ?_⟩
    · rw [own] at hocc; cases hocc
    · have := ((h.pool.of_moved m).running _ a hrun).1
      rw [e, own] at this; cases this
    · rw [own] at hres; cases hres

end Sys2Proof.Machine
end

section
/-! SUPPORT. Pool and transfers stay sound at the entries into FAULT and IDLE (R54, R103, R107) and at the end of an attempt (R31
to R34, R38, R77). -/
namespace Sys2Proof.Machine

variable {s : State} {i : SlotId} {g : SegId} {p : PortId}

/-! ## Entry into FAULT -/

/-- Two states agree in the pool but for what their engines do. -/
structure SameRequests (s t : State) : Prop where
  slot : ∀ i, t.slot i = s.slot i
  list : ∀ g, (t.seg g).list = (s.seg g).list
  ready : ∀ p, (t.port p).ready = (s.port p).ready
  next : t.nextAdmission = s.nextAdmission

theorem duty_withdraw (s : State) (i : SlotId) (st : Status) (g : SegId) :
    ((s.withdraw i st).seg g).engine.duty = (s.seg g).engine.duty := by
  rw [State.withdraw, seg_answer, duty_unlist]

theorem list_withdraw (s : State) (i : SlotId) (st : Status) (g : SegId) : ((s.withdraw i st).seg g).list =
    if g = (s.slot i).snapshot.segment then (s.seg g).list.filter fun j => decide (j ≠ i) else (s.seg g).list := by
  rw [State.withdraw, seg_answer, seg_unlist]; split <;> rfl

theorem ready_withdraw (s : State) (i : SlotId) (st : Status) (p : PortId) (j : SlotId) :
    ((s.withdraw i st).port p).ready j = (s.port p).ready j + if p = (s.slot i).owner ∧ j = i then 1 else 0 := by
  rw [State.withdraw, ready_answer, State.unlist, port_setSeg, slot_setSeg]

theorem nextAdmission_withdraw (s : State) (i : SlotId) (st : Status) :
    (s.withdraw i st).nextAdmission = s.nextAdmission := by
  rw [State.withdraw, nextAdmission_answer, State.unlist, nextAdmission_setSeg]

/-- What a withdrawal does to the pool does not depend on the engines (R54). -/
theorem SameRequests.withdraw {s t : State} (h : SameRequests s t) (i : SlotId) (st : Status) :
    SameRequests (s.withdraw i st) (t.withdraw i st) where
  slot j := by simp only [slot_withdrawn, h.slot]
  list k := by simp only [list_withdraw, h.slot, h.list]
  ready q := funext fun j => by simp only [ready_withdraw, h.slot, h.ready]
  next := by simp only [nextAdmission_withdraw, h.next]

theorem SameRequests.withdrawAll {s t : State} (h : SameRequests s t) (st : Status) (l : List SlotId) :
    SameRequests (l.foldl (fun s i => s.withdraw i st) s) (l.foldl (fun s i => s.withdraw i st) t) := by
  induction l generalizing s t with
  | nil => exact h
  | cons i l ih => exact ih (h.withdraw i st)

theorem duty_withdrawAll (st : Status) (l : List SlotId) (s : State) (g : SegId) :
    ((l.foldl (fun s i => s.withdraw i st) s).seg g).engine.duty = (s.seg g).engine.duty := by
  induction l generalizing s with
  | nil => rfl
  | cons i l ih => rw [List.foldl_cons, ih, duty_withdraw]

/-- An engine that runs no attempt answers its list SEGFAULT and serves no request (R54, R107). -/
theorem sound_enterFault (h : s.Sound) (hr : (s.seg g).engine.isRun = false) : (s.enterFault g).Sound := by
  let l := (s.seg g).list
  let u := l.foldl (fun s i => s.withdraw i .segfault) s
  have withdrawn : u.Sound := sound_withdrawAll (by decide) l (nodup_list h.pool g) s h fun i hi =>
    ((h.pool.listed g i).mp hi).1
  have empty : (u.seg g).list = [] := by
    refine List.eq_nil_iff_forall_not_mem.mpr fun j hj => ?_
    obtain ⟨hw, hg⟩ := (withdrawn.pool.listed g j).mp hj
    obtain ⟨hn, hw', he⟩ := slot_withdrawAll _ l s j hw
    exact hn ((h.pool.listed g j).mpr ⟨hw', he ▸ hg⟩)
  have idle : (u.seg g).engine.isRun = false := by
    cases he : (u.seg g).engine with
    | run a => exact absurd ((duty_withdrawAll _ l s g).symm.trans (duty_eq_run.mpr he)) (duty_of_not_run hr a)
    | _ => rfl
  have down : (u.setSeg g { u.seg g with engine := .fault }).Sound := sound_setSeg withdrawn idle rfl rfl fun _ => empty
  let v : State := s.modSeg g fun v => { v with engine := .fault, readyOwed := true }
  have fault : v.seg g = (s.seg g).retime { s.seg g with engine := .fault, readyOwed := true } := seg_modSeg
  have same : SameRequests s v := by
    refine ⟨fun _ => slot_setSeg _ _ _ _, fun k => ?_, fun q => ?_, nextAdmission_setSeg _ _ _⟩
    · by_cases hk : k = g
      · rw [hk, fault]; rfl
      · rw [seg_modSeg_ne hk]
    · show ((s.setSeg g _).port q).ready = _
      rw [port_setSeg]
  have failed : (v.failList g).pool = (u.setSeg g { u.seg g with engine := .fault }).pool := by
    have list : v.failList g = l.foldl (fun s i => s.withdraw i .segfault) v := by rw [State.failList, same.list]
    have all := same.withdrawAll .segfault l
    rw [list]
    refine pool_eq (fun j => ?_) (fun k => ?_) (fun k => ?_) (fun q => ?_) ?_
    · rw [slot_setSeg]; exact all.slot j
    · rw [seg_setSeg_eq]
      refine (all.list k).trans ?_
      split
      · next e => rw [e]
      · rfl
    · rw [duty_withdrawAll, seg_setSeg_eq]
      split
      · next e => rw [e, fault]; rfl
      · next e => rw [seg_modSeg_ne e]; exact (duty_withdrawAll _ l s k).symm
    · rw [port_setSeg]; exact all.ready q
    · rw [nextAdmission_setSeg]; exact all.next
  exact down.of_pool (by rw [State.enterFault, pool_noticeTo, pool_answerRecovery]; exact failed)

/-- Entry into IDLE of an engine that runs no attempt (R103). -/
theorem sound_enterIdle (h : s.Sound) (hr : (s.seg g).engine.isRun = false) : (s.enterIdle g).Sound := by
  have idle : (s.modSeg g fun v => { v with engine := .idle }).Sound := sound_modSeg h hr rfl rfl nofun
  refine idle.of_pool ?_
  unfold State.enterIdle
  dsimp only
  split
  · rw [pool_noticeTo, pool_setSeg (by rfl) (by rfl), pool_answerRecovery]
  · rw [pool_answerRecovery]

/-! ## What the pool makes of an attempt that ends -/

/-- The record and the result with which a request is answered at the end of its attempt (R31 to R34, R74, R92). -/
inductive Answers (r : Slot) (a : Attempt) : Option Failure → Slot → Result → Prop
  | ok : Answers r a none r ⟨.ok, .none, a.written, a.readData⟩
  | failed (f : Failure) (st : Status) (hst : st ∈ [.nackaddr, .nackdata, .stretch, .aborted]) :
      Answers r a (some f) r ⟨st, f.place, a.written, []⟩
  | lost (f : Failure) (last : Config.lossLimit ≤ r.losses + 1) :
      Answers r a (some f) { r with losses := r.losses + 1 } ⟨.arblost, f.place, a.written, []⟩
  | lateRetry (f : Failure) (left : r.retriesUsed < r.snapshot.retryLimit) :
      Answers r a (some f) { r with retriesUsed := r.retriesUsed + 1 } (.ofScheduler .expired)
  | lateLoss (f : Failure) (left : r.losses + 1 < Config.lossLimit) :
      Answers r a (some f) { r with losses := r.losses + 1 } (.ofScheduler .expired)

/-- The record with which a request returns to its list at the end of its attempt (R32, R33). -/
inductive Returns (r : Slot) : Slot → Prop
  | deferred (left : r.retriesUsed < r.snapshot.retryLimit) (intime : r.deadlinePassed = false) :
      Returns r { r with
        retriesUsed := r.retriesUsed + 1, state := .deferred, retryTimer := some r.snapshot.retryInterval }
  | pending (left : r.losses + 1 < Config.lossLimit) (intime : r.deadlinePassed = false) :
      Returns r { r with losses := r.losses + 1, state := .pending, retryTimer := none }

theorem goBack_cases (s : State) (i : SlotId) (r : Slot) (st : RequestState) (timer : Option Nat) :
    r.deadlinePassed = true ∧ (s.setSlot i r).goBack i st timer = (s.setSlot i r).answer i (.ofScheduler .expired) ∨
    r.deadlinePassed = false ∧
      (s.setSlot i r).goBack i st timer = (s.setSlot i { r with state := st, retryTimer := timer }).rejoin i := by
  unfold State.goBack
  rw [slot_setSlot]
  split
  · next h => exact .inl ⟨h, rfl⟩
  · next h => exact .inr ⟨Bool.eq_false_iff.mpr h, by rw [State.modSlot, slot_setSlot, setSlot_setSlot]⟩

/-- The pool frees an orphan's slot, answers a request, or returns it to its list (R31 to R34, R38). -/
theorem settle_cases (s : State) (a : Attempt) (f : Option Failure) :
    s.settle a f = s.releaseSlot a.slot ∨
    (s.slot a.slot).orphan = false ∧
      ((∃ r res, Answers (s.slot a.slot) a f r res ∧ s.settle a f = (s.setSlot a.slot r).answer a.slot res) ∨
        ∃ r, Returns (s.slot a.slot) r ∧ s.settle a f = (s.setSlot a.slot r).rejoin a.slot) := by
  unfold State.settle
  split
  · exact .inl rfl
  · next hx =>
    refine .inr ⟨Bool.eq_false_iff.mpr hx, ?_⟩
    have same : s.setSlot a.slot (s.slot a.slot) = s := setSlot_slot s a.slot
    split
    · exact .inl ⟨_, _, .ok, by rw [same]⟩
    · next f =>
      unfold State.afterFailure
      split
      · unfold State.afterAddressNack
        dsimp only
        split
        · exact .inl ⟨_, _, .failed f .nackaddr (by simp), by rw [same]⟩
        · next hl =>
          have left := not_le.mp fun e => hl (.inr e)
          rcases goBack_cases s a.slot { s.slot a.slot with retriesUsed := (s.slot a.slot).retriesUsed + 1 } .deferred
            (some (s.slot a.slot).snapshot.retryInterval) with ⟨_, h⟩ | ⟨hd, h⟩
          · exact .inl ⟨_, _, .lateRetry f left, h⟩
          · exact .inr ⟨_, .deferred left hd, h⟩
      · unfold State.afterLoss
        dsimp only [State.modSlot]
        rw [slot_setSlot]
        split
        · next hl => exact .inl ⟨_, _, .lost f hl, rfl⟩
        · next hl =>
          have left := not_le.mp hl
          rcases goBack_cases s a.slot { s.slot a.slot with losses := (s.slot a.slot).losses + 1 } .pending none with
            ⟨_, h⟩ | ⟨hd, h⟩
          · exact .inl ⟨_, _, .lateLoss f left, h⟩
          · exact .inr ⟨_, .pending left hd, h⟩
      · exact .inl ⟨_, _, .failed f .nackdata (by simp), by rw [same]⟩
      · exact .inl ⟨_, _, .failed f .stretch (by simp), by rw [same]⟩
      · exact .inl ⟨_, _, .failed f .aborted (by simp), by rw [same]⟩

section
variable {r u : Slot} {a : Attempt} {f : Option Failure} {res : Result} {b : Bool}

/-- The first failure of an attempt whose outcome is taken: none only where its stop has moved every byte (R73). -/
def Attempt.EndsWith (a : Attempt) (f : Option Failure) : Prop := f = none → a.failure = none ∧ a.phase = .stop

theorem Answers.request (h : Answers r a f u res) : u.request = r.request := by cases h <;> rfl

theorem Answers.orphan (h : Answers r a f u res) : u.orphan = r.orphan := by cases h <;> rfl

theorem Answers.counts (h : Answers r a f u res) (hc : r.CountsFit b) (hn : r.state ≠ .answer) :
    (u.answered res).CountsFit b := by
  have lost := hc.losing hn
  have attempts : r.attempts ≤ r.retriesUsed + r.losses + 1 := by
    have := hc.attempts
    split at this <;> omega
  cases h with
  | ok => exact CountsFit.answered hc hn _ b
  | failed => exact CountsFit.answered hc hn _ b
  | lost _ last =>
    refine answered_counts (r := { r with losses := r.losses + 1 }) hc.limit hc.retries lost hc.passed ?_ _ b
    exact le_trans (show r.attempts ≤ r.retriesUsed + (r.losses + 1) by omega) (Nat.le_add_right _ _)
  | lateRetry _ left =>
    refine answered_counts (r := { r with retriesUsed := r.retriesUsed + 1 }) hc.limit left hc.losses hc.passed ?_ _ b
    exact le_trans (show r.attempts ≤ r.retriesUsed + 1 + r.losses by omega) (Nat.le_add_right _ _)
  | lateLoss _ left =>
    refine answered_counts (r := { r with losses := r.losses + 1 }) hc.limit hc.retries left.le hc.passed ?_ _ b
    exact le_trans (show r.attempts ≤ r.retriesUsed + (r.losses + 1) by omega) (Nat.le_add_right _ _)

/-- The result of an ended attempt fits its request (R21, R73, R150). -/
theorem Answers.result (h : Answers r a f u res) (ha : a.Fits r) (he : a.EndsWith f) : res.Fits r := by
  have failed (st : Status) (place : Where) (hok : st ≠ .ok)
      (hst : ¬(st = .segfault ∨ st = .cancelled ∨ st = .expired ∨ st = .retired)) :
      (⟨st, place, a.written, []⟩ : Result).Fits r :=
    ⟨ha.written, fun e => absurd e hok, fun _ => rfl, fun e => absurd e hst⟩
  cases h with
  | ok =>
    obtain ⟨hf, hp⟩ := he rfl
    obtain ⟨hw, hd⟩ := ha.stopping hf hp
    exact ⟨ha.written, fun _ => ⟨rfl, hw, hd⟩, fun e => absurd rfl e, fun e => by simp at e⟩
  | failed f st hst =>
    simp only [List.mem_cons, List.not_mem_nil, or_false] at hst
    rcases hst with rfl | rfl | rfl | rfl <;> exact failed _ _ (by decide) (by decide)
  | lost f => exact failed _ _ (by decide) (by decide)
  | lateRetry => exact ofScheduler_fits (by decide) r
  | lateLoss => exact ofScheduler_fits (by decide) r

theorem Returns.request (h : Returns r u) : u.request = r.request := by cases h <;> rfl

theorem Returns.waiting (h : Returns r u) : u.waiting = true := by cases h <;> simp [Slot.waiting]

theorem Returns.fits (h : Returns r u) (hf : r.Fits) (ha : r.state = .active) (hx : r.orphan = false) : u.Fits := by
  have noResult : r.result.isSome = false := by
    rw [Bool.eq_false_iff]; intro e
    rw [hf.result, ha] at e; cases e
  have hw := h.waiting
  have notOrphan : r.orphan = true → u.state = .active := fun e => by rw [hx] at e; cases e
  have notLate (intime : r.deadlinePassed = false) : r.deadlinePassed = true → u.waiting = false := fun e => by
    rw [intime] at e; cases e
  cases h with
  | deferred left intime => exact ⟨nofun, notOrphan, by simpa using noResult, by simp, fun _ => .inl hw, notLate intime⟩
  | pending left intime => exact ⟨nofun, notOrphan, by simpa using noResult, by simp, fun _ => .inl hw, notLate intime⟩

theorem Returns.noResult (h : Returns r u) (hf : r.Fits) (ha : r.state = .active) : u.result = none := by
  have : r.result = none := by
    rw [← Option.not_isSome_iff_eq_none, hf.result, ha]; decide
  cases h <;> exact this

theorem Returns.counts (h : Returns r u) (hc : r.CountsFit b) (ha : r.state = .active) (b' : Bool) : u.CountsFit b' := by
  have attempts : r.attempts ≤ r.retriesUsed + r.losses + 1 := by
    have := hc.attempts
    split at this <;> omega
  have lost := hc.losing (by simp [ha])
  cases h with
  | deferred left =>
    refine ⟨hc.limit, left, hc.losses, fun _ => lost, hc.passed, ?_⟩
    exact le_trans (show r.attempts ≤ r.retriesUsed + 1 + r.losses by omega) (Nat.le_add_right _ _)
  | pending left =>
    refine ⟨hc.limit, hc.retries, left.le, fun _ => left, hc.passed, ?_⟩
    exact le_trans (show r.attempts ≤ r.retriesUsed + (r.losses + 1) by omega) (Nat.le_add_right _ _)

end

/-! ## The end of an attempt -/

@[simp] theorem list_leaveRun (v : Seg) (first : Option Failure) (second : Option FailKind) (b c : Bool) :
    (v.leaveRun first second b c).list = v.list := by
  unfold Seg.leaveRun; dsimp only; split <;> rfl

@[simp] theorem duty_leaveRun (v : Seg) (first : Option Failure) (second : Option FailKind) (b c : Bool) :
    (v.leaveRun first second b c).engine.duty = .up := by
  unfold Seg.leaveRun; dsimp only; split <;> rfl

theorem seg_rejoin (s : State) (i : SlotId) (k : SegId) : (s.rejoin i).seg k =
    if k = (s.slot i).snapshot.segment then
      { s.seg k with list := placeByAge (fun j => (s.slot j).admission) i (s.seg k).list } else s.seg k := by
  rw [State.rejoin, seg_setSeg_eq]
  split
  · next e => rw [e]
  · rfl

/-- A request that a segment's engine ran has moved when the pool has settled its attempt and the engine has left RUN; `u` is
the state that the pool leaves. -/
structure Settles (s u : State) (i : SlotId) : Prop where
  moved : ∀ t : State, (∀ j, t.slot j = u.slot j) → (∀ k, (t.seg k).list = (u.seg k).list) →
    (∀ q, (t.port q).ready = (u.port q).ready) → t.nextAdmission = u.nextAdmission → EngineMoves s t i → s.Moved t i
  idle : (u.slot i).state ≠ .active
  others : ∀ k, (u.seg k).engine.duty = (s.seg k).engine.duty
  counts : (u.slot i).occupied = true → ∀ b, (u.slot i).CountsFit b
  results : ∀ res, (u.slot i).result = some res → res.Fits (u.slot i)

theorem settles_freed (h : s.Sound) (ha : (s.slot i).state = .active) : Settles s (s.releaseSlot i) i := by
  have own : (s.releaseSlot i).slot i = Slot.cleared := slot_setSlot _ _ _
  refine ⟨fun t slots lists ready next m => ?_, by rw [own]; decide, fun _ => by simp [State.releaseSlot], fun hocc => ?_,
    fun res hres => ?_⟩
  · refine moved_freed h.pool (not_waiting_of_active ha) (fun j => (slots j).trans (slot_setSlot_eq s i j _))
      (fun k => (lists k).trans (by simp [State.releaseSlot])) m (fun q j => ?_) next
    rw [ready]
    by_cases hj : j = i
    · rw [if_pos hj, hj]; exact ready_eq_zero h.pool (by simp [ha]) q
    · rw [if_neg hj]; rfl
  · rw [own] at hocc; cases hocc
  · rw [own] at hres; cases hres

theorem settles_answered {a : Attempt} {f : Option Failure} {r : Slot} {res : Result} (h : s.Sound)
    (ha : (s.slot i).state = .active) (hx : (s.slot i).orphan = false) (hr : Answers (s.slot i) a f r res)
    (fits : a.Fits (s.slot i)) (ends : a.EndsWith f) : Settles s ((s.setSlot i r).answer i res) i := by
  have slot j : ((s.setSlot i r).answer i res).slot j = if j = i then r.answered res else s.slot j := by
    rw [slot_answer, slot_setSlot, slot_setSlot_eq]
    split <;> rfl
  have own : ((s.setSlot i r).answer i res).slot i = r.answered res := by rw [slot, if_pos rfl]
  have notAnswer : (s.slot i).state ≠ .answer := by simp [ha]
  refine ⟨fun t slots lists ready next m => ?_, by rw [own]; simp [Slot.answered], fun _ => by simp, fun _ b => ?_,
    fun res' hres => ?_⟩
  · refine moved_answered (res := res) h.pool hr.request (occupied_of_active ha) hx (hr.orphan.trans hx) notAnswer
      (fun j => (slots j).trans (slot j)) (fun k => ?_) m (fun q j => ?_) (next.trans (by simp))
    · rw [lists, seg_answer, seg_setSlot, filter_ne_eq_self]
      exact not_mem_list h.pool fun hw => by rw [not_waiting_of_active ha] at hw; cases hw
    · rw [ready, ready_answer, port_setSlot, slot_setSlot, owner_of_request hr.request]
  · rw [own]
    exact (hr.counts (h.transfers.counts i (occupied_of_active ha)) notAnswer).of_not_active (by simp [Slot.answered]) b
  · rw [own] at hres ⊢
    cases hres
    exact (hr.result fits ends).of_request hr.request

theorem settles_returned {r : Slot} (h : s.Sound) (ha : (s.slot i).state = .active) (hx : (s.slot i).orphan = false)
    (hr : Returns (s.slot i) r) : Settles s ((s.setSlot i r).rejoin i) i := by
  have slot j : ((s.setSlot i r).rejoin i).slot j = if j = i then r else s.slot j := by
    rw [State.rejoin, slot_setSeg, slot_setSlot_eq]
  have own : ((s.setSlot i r).rejoin i).slot i = r := by rw [slot, if_pos rfl]
  have segment : r.snapshot.segment = (s.slot i).snapshot.segment :=
    congrArg Snapshot.segment (snapshot_of_request hr.request)
  have age : (fun j => ((s.setSlot i r).slot j).admission) = fun j => (s.slot j).admission := by
    funext j
    rw [slot_setSlot_eq]
    split
    · next e => rw [e, admission_of_request hr.request]
    · rfl
  have list k : (((s.setSlot i r).rejoin i).seg k).list = if k = (s.slot i).snapshot.segment then
      placeByAge (fun j => (s.slot j).admission) i (s.seg k).list else (s.seg k).list := by
    rw [seg_rejoin, slot_setSlot, segment, age, seg_setSlot]
    split <;> rfl
  refine ⟨fun t slots lists ready next m => ?_, ?_, fun k => ?_, fun _ b => ?_, fun res hres => ?_⟩
  · exact moved_returned h.pool ha hx hr.request (hr.fits (h.pool.slots i) ha hx) hr.waiting
      (fun j => (slots j).trans (slot j)) (fun k => (lists k).trans (list k)) m
      (fun q j => by rw [ready, State.rejoin, port_setSeg, port_setSlot]) (next.trans (by simp [State.rejoin]))
  · rw [own]; exact not_active_of_waiting hr.waiting
  · rw [seg_rejoin]; split <;> rw [seg_setSlot]
  · rw [own]; exact hr.counts (h.transfers.counts i (occupied_of_active ha)) ha b
  · rw [own, hr.noResult (h.pool.slots i) ha] at hres; cases hres

/-- The end of an attempt leaves pool and transfers sound (R31 to R34, R38, R77). `a` is the attempt as its end finds it, past
the phases that its last clock edge ended. -/
theorem sound_endAttempt {a c : Attempt} {first : Option Failure} {second : Option FailKind} {toCheck opens : Bool}
    (h : s.Sound) (hr : (s.seg g).engine = .run c) (hs : c.slot = a.slot) (fits : a.Fits (s.slot a.slot))
    (ends : a.EndsWith first) : (s.endAttempt g a first second toCheck opens).Sound := by
  obtain ⟨hact, hseg⟩ := h.pool.running g c hr
  rw [hs] at hact hseg
  have settles : Settles s (s.settle a first) a.slot := by
    rcases settle_cases s a first with e | ⟨hx, ⟨r, res, hans, e⟩ | ⟨r, hret, e⟩⟩ <;> rw [e]
    · exact settles_freed h hact
    · exact settles_answered h hact hx hans fits ends
    · exact settles_returned h hact hx hret
  unfold State.endAttempt
  generalize s.settle a first = u at settles
  generalize ht : (u.modSeg g fun v => v.leaveRun first second toCheck opens) = t
  have slot j : t.slot j = u.slot j := by rw [← ht]; exact slot_setSeg _ _ _ _
  have seg : t.seg g = (u.seg g).retime ((u.seg g).leaveRun first second toCheck opens) := by rw [← ht, seg_modSeg]
  have other k (hk : k ≠ g) : t.seg k = u.seg k := by rw [← ht, seg_modSeg_ne hk]
  have up : (t.seg g).engine.duty = .up := by rw [seg, retime_engine, duty_leaveRun]
  have m : s.Moved t a.slot := by
    refine settles.moved t slot (fun k => ?_) (fun q => ?_) ?_ ⟨fun k hk => ?_, .inr ?_⟩
    · by_cases hk : k = g
      · rw [hk, seg, retime_list, list_leaveRun]
      · rw [other k hk]
    · rw [← ht, State.modSeg, port_setSeg]
    · rw [← ht]; exact nextAdmission_setSeg _ _ _
    · rw [hseg] at hk; rw [other k hk, settles.others]
    · rw [hseg]; exact ⟨⟨c, duty_eq_run.mpr hr, hs⟩, up⟩
  refine ⟨h.pool.of_moved m, h.transfers.of_moved h.pool m (fun hocc => ?_) (fun b hb _ => ?_) fun res hres => ?_⟩
  · rw [slot] at hocc ⊢; exact settles.counts hocc _
  · rw [hseg] at hb
    rw [duty_eq_run.mpr hb] at up; cases up
  · rw [slot] at hres ⊢; exact settles.results res hres

end Sys2Proof.Machine
end

section
/-! SUPPORT. What a running attempt has moved goes on fitting its phase and its request (R67 to R75, R80, R88, R89). -/
namespace Sys2Proof.Machine

/-! ## The order of the phases (R70) -/

/-- Which phases can follow a phase of a request's attempt, and what the request is like there (R20, R70). -/
structure Slot.Follows (r : Slot) (ph next : Phase) : Prop where
  mem : next ∈ r.phases
  start : next ≠ .start
  address : next = .address → ph = .start
  subAddress : next = .subAddress → ph = .address
  write : next = .write → (ph = .address ∨ ph = .subAddress) ∧ r.writeData ≠ []
  turn : next = .restart ∨ next = .addressRead →
    (ph = .start ∨ ph = .address ∨ ph = .subAddress) ∧ r.writeData = [] ∨ ph = .write ∨ ph = .restart
  read : next = .read → ph = .addressRead ∧ 1 ≤ r.readLength.getD 0
  stop : next = .stop → (ph = .address ∨ ph = .subAddress) ∧ r.writeData = [] ∧ r.readLength = none ∨
    ph = .write ∧ r.readLength = none ∨ ph = .read

/-- A phase that is not the last is START or one of the middle phases. -/
theorem mem_phases_going {r : Slot} {ph : Phase} (hp : ph ∈ r.phases) (hs : ph ≠ .stop) : ph = .start ∨ ph ∈ r.middlePhases := by
  simpa [Slot.phases, hs] using hp

/-- The table of R70, one operation after another, with the fields that R20 lets it carry. -/
theorem nextPhase_follows {r : Slot} (hf : r.FieldsFit) {ph : Phase} (hp : ph ∈ r.phases) (hs : ph ≠ .stop) :
    r.Follows ph (r.nextPhase ph) := by
  replace hp := mem_phases_going hp hs
  obtain ⟨_, hf⟩ := hf
  unfold Slot.nextPhase
  cases hop : r.operation <;> simp only [hop] at hf
  case read =>
    obtain ⟨hw, hl⟩ := hf
    by_cases hsub : r.subAddress.isSome = true <;> by_cases hform : r.snapshot.form = .tenBit <;>
      simp [Slot.middlePhases, hop, hsub, hform] at hp <;> rcases hp with rfl | rfl | rfl | rfl | rfl | rfl <;>
      constructor <;> simp [Slot.phases, Slot.middlePhases, phaseAfter, hop, hsub, hform, hw, hl]
  case write =>
    obtain ⟨hw, hl⟩ := hf
    by_cases hsub : r.subAddress.isSome = true <;>
      simp [Slot.middlePhases, hop, hsub] at hp <;> rcases hp with rfl | rfl | rfl | rfl <;>
      constructor <;> simp [Slot.phases, Slot.middlePhases, phaseAfter, hop, hsub, hw, hl]
  case xfer =>
    by_cases hsub : r.subAddress.isSome = true <;> by_cases hw : r.writeData = [] <;>
      simp [Slot.middlePhases, hop, hsub, hw] at hp <;> rcases hp with rfl | rfl | rfl | rfl | rfl | rfl | rfl <;>
      constructor <;> simp [Slot.phases, Slot.middlePhases, phaseAfter, hop, hsub, hw, hf]
  case probe =>
    obtain ⟨hw, hl⟩ := hf
    simp [Slot.middlePhases, hop] at hp
    rcases hp with rfl | rfl <;> constructor <;> simp [Slot.phases, Slot.middlePhases, phaseAfter, hop, hw, hl]

theorem stop_mem_phases (r : Slot) : Phase.stop ∈ r.phases := by simp [Slot.phases]

/-! ## A phase that is over -/

section
variable {a : Attempt} {r : Slot}

/-- The current phase of an attempt has moved all its bytes, so that the next one can begin (R68, R71, R72). -/
structure Attempt.Done (a : Attempt) (r : Slot) : Prop where
  phase : a.phase ∈ r.phases
  going : a.phase ≠ .stop
  written : a.written ≤ r.writeData.length
  timed : a.timing ≠ none
  followed : a.following = true → a.failure.map Failure.kind = some .arbitrationLost
  failed : ∀ f, a.failure = some f → f.kind = .aborted ∨ a.following = true
  early : a.phase = .start ∨ a.phase = .address ∨ a.phase = .subAddress → a.written = 0 ∧ a.readData = []
  sent : a.failure = none → a.phase = .write ∨ a.phase = .restart ∨ a.phase = .addressRead →
    a.written = r.writeData.length ∧ a.readData = []
  read : a.failure = none → a.phase = .read →
    a.written = r.writeData.length ∧ a.readData.length = r.readLength.getD 0

/-- The next phase begins (R68, R70). -/
theorem pass_fits (hf : r.FieldsFit) (d : a.Done r) : (a.pass (r.nextPhase a.phase)).Fits r := by
  have next := nextPhase_follows hf d.phase d.going
  refine ⟨next.mem, d.written, fun e => absurd e d.timed, nofun, fun e => ⟨d.followed e, next.start⟩, fun f e => ?_,
    fun e => ?_, fun hn e => ?_, fun hn e => ?_, fun hn e => ?_, fun hn e => ?_⟩
  · exact (d.failed f e).imp_right .inl
  · refine d.early ?_
    rcases e with e | e | e
    · exact absurd e next.start
    · exact .inl (next.address e)
    · exact .inr (.inl (next.subAddress e))
  · obtain ⟨hp, hw⟩ := next.write e
    obtain ⟨h0, hd⟩ := d.early (.inr hp)
    exact ⟨h0, List.length_pos_of_ne_nil hw, hd⟩
  · rcases next.turn e with ⟨hp, hw⟩ | hp
    · obtain ⟨h0, hd⟩ := d.early hp
      exact ⟨h0.trans (by rw [hw]; rfl), hd⟩
    · exact d.sent hn (hp.imp_right .inl)
  · obtain ⟨hp, hl⟩ := next.read e
    obtain ⟨hw, hd⟩ := d.sent hn (.inr (.inr hp))
    exact ⟨hw, by rw [show (a.pass _).readData = [] from hd]; rfl, hl⟩
  · rcases next.stop e with ⟨hp, hw, hl⟩ | ⟨hp, hl⟩ | hp
    · obtain ⟨h0, hd⟩ := d.early (.inr hp)
      exact ⟨h0.trans (by rw [hw]; rfl), by rw [show (a.pass _).readData = [] from hd, hl]; rfl⟩
    · obtain ⟨hw, hd⟩ := d.sent hn (.inl hp)
      exact ⟨hw, by rw [show (a.pass _).readData = [] from hd, hl]; rfl⟩
    · exact d.read hn hp

/-- START and RESTART, whose start has been made, and a byte of an address move no data: such a phase is over as it stands. -/
theorem Attempt.Fits.done (h : a.Fits r) (ht : a.timing ≠ none) (hs : a.phase ≠ .stop) (hw : a.phase ≠ .write)
    (hr : a.phase ≠ .read) : a.Done r where
  phase := h.phase
  going := hs
  written := h.written
  timed := ht
  followed e := (h.followed e).1
  failed f e := (h.failed f e).imp_right fun e => e.resolve_right fun e => hs e.1
  early := h.early
  sent hn e := h.turning hn (e.resolve_left hw)
  read _ e := absurd e hr

/-- An attempt that turns to its stop with its first failure recorded (R74, R75, R80). -/
theorem failed_pass_fits {f : Failure} (h : a.Fits r) (ht : a.timing ≠ none) (hn : a.following = false)
    (hk : f.kind = .aborted ∨ f.kind = .addressNack ∨ f.kind = .dataNack) :
    (({ a with failure := some f } : Attempt).pass .stop).Fits r where
  phase := stop_mem_phases r
  written := h.written
  opened e := absurd e ht
  restarted := nofun
  followed e := by rw [show a.following = true from e] at hn; cases hn
  failed f' e := by
    cases e
    exact hk.imp_right fun e => .inr ⟨rfl, e⟩
  early e := by rcases e with e | e | e <;> cases e
  writing := nofun
  turning := nofun
  reading := nofun
  stopping := nofun

theorem not_following (h : a.Fits r) (hn : a.failure = none) : a.following = false := by
  rw [Bool.eq_false_iff]
  intro e
  have := (h.followed e).1
  rw [hn] at this; cases this

/-- Arbitration is lost within a byte (R72, R88, R89): the engine follows, with what it has read. -/
theorem lose_fits (h : a.Fits r) (ht : a.timing ≠ none) (hs : a.phase ≠ .start)
    (data : List Byte) (hd : data ≠ a.readData → a.phase = .read) : ({ a with readData := data } : Attempt).lose.Fits r where
  phase := h.phase
  written := h.written
  opened e := absurd e ht
  restarted := h.restarted
  followed _ := ⟨rfl, hs⟩
  failed _ _ := .inr (.inl rfl)
  early e := by
    obtain ⟨hw, hr⟩ := h.early e
    refine ⟨hw, ?_⟩
    by_contra hne
    have := hd fun e => hne (e.trans hr)
    rcases e with e | e | e <;> rw [show a.phase = _ from e] at this <;> cases this
  writing := nofun
  turning := nofun
  reading := nofun
  stopping := nofun

/-! ## The clock seen low -/

/-- A start that has been made was timed (R62, R63). -/
theorem timed_of_made (h : a.Fits r) (hm : a.made = true) : a.timing ≠ none := fun e => by
  obtain ⟨hp, _⟩ := h.opened e
  simp [Attempt.made, hp, e] at hm

theorem phase_of_made (hm : a.made = true) : a.phase = .start ∨ a.phase = .restart := by
  simp only [Attempt.made, Bool.or_eq_true, Bool.and_eq_true, decide_eq_true_eq] at hm
  exact hm.imp And.left And.left

/-- START or RESTART is over, its start made (R62, R63, R68). -/
theorem pass_start_fits (hf : r.FieldsFit) (h : a.Fits r) (ht : a.timing ≠ none)
    (hp : a.phase = .start ∨ a.phase = .restart) : (a.pass (r.nextPhase a.phase)).Fits r := by
  refine pass_fits hf (h.done ht ?_ ?_ ?_) <;> rcases hp with hp | hp <;> simp [hp]

theorem clockFalls_fits (hf : r.FieldsFit) (h : a.Fits r) : (a.clockFalls r).Fits r := by
  unfold Attempt.clockFalls
  split
  · next hab =>
    simp only [Attempt.aborting, Bool.and_eq_true, decide_eq_true_eq] at hab
    obtain ⟨f, hfa, hk⟩ := Option.map_eq_some_iff.mp hab.1
    have same : a.pass .stop = ({ a with failure := some f } : Attempt).pass .stop := by rw [← hfa]
    rw [same]
    refine failed_pass_fits h (fun e => ?_) ?_ (.inl hk)
    · rw [(h.opened e).2] at hfa; cases hfa
    · rw [Bool.eq_false_iff]
      intro e
      have := (h.followed e).1
      rw [hab.1] at this; cases this
  · split
    · next hm => exact pass_start_fits hf h (timed_of_made h hm) (phase_of_made hm)
    · exact h

theorem seesLow_fits (hf : r.FieldsFit) (h : a.Fits r) (fell : Bool) : (a.seesLow r fell).Fits r := by
  unfold Attempt.seesLow
  split
  · exact h
  · exact clockFalls_fits hf h

theorem inByte_fits (hf : r.FieldsFit) (h : a.Fits r) (ht : a.timing ≠ none) : (a.inByte r).Fits r := by
  unfold Attempt.inByte
  split
  · next hm => exact pass_start_fits hf h ht (hm.elim phase_of_made .inr)
  · exact h

/-- What the clock seen low leaves of an attempt. -/
theorem inByte_keeps (a : Attempt) (r : Slot) : (a.inByte r).failure = a.failure ∧ (a.inByte r).timing = a.timing ∧
    (a.inByte r).slot = a.slot := by
  unfold Attempt.inByte; split <;> exact ⟨rfl, rfl, rfl⟩

theorem clockFalls_keeps (a : Attempt) (r : Slot) : (a.clockFalls r).timing = a.timing ∧ (a.clockFalls r).slot = a.slot := by
  unfold Attempt.clockFalls; split <;> [exact ⟨rfl, rfl⟩; (split <;> exact ⟨rfl, rfl⟩)]

theorem seesLow_keeps (a : Attempt) (r : Slot) (fell : Bool) :
    (a.seesLow r fell).timing = a.timing ∧ (a.seesLow r fell).slot = a.slot := by
  unfold Attempt.seesLow; split
  · exact ⟨rfl, rfl⟩
  · exact clockFalls_keeps a r

/-! ## The end of a byte -/

/-- An address or sub-address byte acknowledged (R68, R69, R71). -/
theorem advance_address_fits (hf : r.FieldsFit) (h : a.Fits r) (ht : a.timing ≠ none)
    (hp : a.phase = .address ∨ a.phase = .subAddress ∨ a.phase = .addressRead) : (a.advance r).Fits r := by
  unfold Attempt.advance
  split
  · refine ⟨h.phase, h.written, h.opened, h.restarted, h.followed, h.failed, h.early, fun _ e => ?_, h.turning,
      fun _ e => ?_, h.stopping⟩ <;>
    · rcases hp with hp | hp | hp <;> rw [show a.phase = _ from e] at hp <;> cases hp
  · refine pass_fits hf (h.done ht ?_ ?_ ?_) <;> rcases hp with hp | hp | hp <;> simp [hp]

/-- A byte of WRITE acknowledged (R71). -/
theorem advance_write_fits (hf : r.FieldsFit) (h : a.Fits r) (ht : a.timing ≠ none) (hn : a.failure = none)
    (hp : a.phase = .write) : (({ a with written := a.written + 1 } : Attempt).advance r).Fits r := by
  obtain ⟨hw, hlt, hd⟩ := h.writing hn hp
  have notEarly : ¬(a.phase = .start ∨ a.phase = .address ∨ a.phase = .subAddress) := by simp [hp]
  have len : r.phaseLength a.phase = r.writeData.length := by rw [hp]; rfl
  unfold Attempt.advance
  dsimp only
  rw [len]
  split
  · next hnext =>
    exact ⟨h.phase, by show a.written + 1 ≤ _; omega, h.opened, h.restarted, h.followed, h.failed,
      fun e => absurd e notEarly, fun _ _ => ⟨by show a.written + 1 = a.bytePos + 1; omega, hnext, hd⟩,
      fun _ e => by simp [hp] at e, fun _ e => by simp [hp] at e, fun _ e => by simp [hp] at e⟩
  · next hlast =>
    exact pass_fits (a := { a with written := a.written + 1 }) hf
      ⟨h.phase, by simp [hp], by show a.written + 1 ≤ _; omega, ht, fun e => (h.followed e).1,
        fun f e => absurd (hn.symm.trans e) nofun, fun e => absurd e notEarly,
        fun _ _ => ⟨by show a.written + 1 = _; omega, hd⟩, fun _ e => by simp [hp] at e⟩

/-- A byte of READ taken (R72). -/
theorem advance_read_fits (hf : r.FieldsFit) (h : a.Fits r) (ht : a.timing ≠ none) (hn : a.failure = none)
    (hp : a.phase = .read) (b : Byte) : (({ a with readData := a.readData ++ [b] } : Attempt).advance r).Fits r := by
  obtain ⟨hw, hd, hlt⟩ := h.reading hn hp
  have notEarly : ¬(a.phase = .start ∨ a.phase = .address ∨ a.phase = .subAddress) := by simp [hp]
  have len : r.phaseLength a.phase = r.readLength.getD 0 := by rw [hp]; rfl
  have longer : (a.readData ++ [b]).length = a.bytePos + 1 := by simp [hd]
  unfold Attempt.advance
  dsimp only
  rw [len]
  split
  · next hnext =>
    exact ⟨h.phase, h.written, h.opened, h.restarted, h.followed, h.failed, fun e => absurd e notEarly,
      fun _ e => by simp [hp] at e, fun _ e => by simp [hp] at e, fun _ _ => ⟨hw, longer, hnext⟩,
      fun _ e => by simp [hp] at e⟩
  · next hlast =>
    exact pass_fits (a := { a with readData := a.readData ++ [b] }) hf
      ⟨h.phase, by simp [hp], h.written, ht, fun e => (h.followed e).1,
        fun f e => absurd (hn.symm.trans e) nofun, fun e => absurd e notEarly,
        fun _ e => by simp [hp] at e, fun _ _ => ⟨hw, longer.trans (by omega)⟩⟩

theorem nack_fits {kind : FailKind} (h : a.Fits r) (ht : a.timing ≠ none) (hn : a.failure = none)
    (hk : kind = .addressNack ∨ kind = .dataNack) : (a.nack kind).Fits r :=
  failed_pass_fits (f := ⟨kind, a.phase.place⟩) h ht (not_following h hn) (.inr hk)

/-- The attempt after the acknowledge bit of a byte (R65, R66, R71 to R75). -/
theorem afterByte_fits (hf : r.FieldsFit) (h : a.Fits r) (ht : a.timing ≠ none) (hn : a.failure = none) (levels : Byte)
    (ninth : Bool) : (a.afterByte r levels ninth).Fits r := by
  unfold Attempt.afterByte
  split
  · next hc =>
    refine lose_fits h ht (fun e => ?_) a.readData fun e => absurd rfl e
    simp [Attempt.contradicted, e, Phase.sends] at hc
  · split
    · next hp =>
      split
      · exact nack_fits h ht hn (.inl rfl)
      · exact advance_address_fits hf h ht (.inl hp)
    · next hp =>
      split
      · exact nack_fits h ht hn (.inl rfl)
      · exact advance_address_fits hf h ht (.inr (.inr hp))
    · next hp =>
      split
      · exact nack_fits h ht hn (.inr rfl)
      · exact advance_address_fits hf h ht (.inr (.inl hp))
    · next hp =>
      split
      · exact nack_fits h ht hn (.inr rfl)
      · exact advance_write_fits hf h ht hn hp
    · next hp =>
      dsimp only
      split
      · exact lose_fits h ht (by simp [hp]) _ fun _ => hp
      · exact advance_read_fits hf h ht hn hp _
    · exact h
    · exact h
    · exact h

theorem afterByte_slot (a : Attempt) (r : Slot) (levels : Byte) (ninth : Bool) :
    (a.afterByte r levels ninth).slot = a.slot ∧ (a.afterByte r levels ninth).timing = a.timing := by
  have advance (b : Attempt) : (b.advance r).slot = b.slot ∧ (b.advance r).timing = b.timing := by
    unfold Attempt.advance; split <;> exact ⟨rfl, rfl⟩
  unfold Attempt.afterByte
  split
  · exact ⟨rfl, rfl⟩
  · split
    case h_6 => exact ⟨rfl, rfl⟩
    case h_7 => exact ⟨rfl, rfl⟩
    case h_8 => exact ⟨rfl, rfl⟩
    case h_5 =>
      dsimp only
      split
      · exact ⟨rfl, rfl⟩
      · exact advance _
    all_goals
      split
      · exact ⟨rfl, rfl⟩
      · exact advance _

/-! ## Losses and aborts -/

/-- A loss can be seen only after the opening start (R88). -/
theorem started_of_canLose {how : LossCause} (hc : a.canLose r how = true) : a.phase ≠ .start := fun e => by
  simp [Attempt.canLose, e] at hc

theorem timed_of_started (h : a.Fits r) (hp : a.phase ≠ .start) : a.timing ≠ none := fun e => hp (h.opened e).1

theorem readBy_lose_fits (h : a.Fits r) (hp : a.phase ≠ .start) (how : LossCause) : (a.readBy how).lose.Fits r := by
  rw [readBy_eq]
  refine lose_fits h (timed_of_started h hp) hp _ fun hne => ?_
  cases how with
  | dataLow bit data =>
    by_contra hr
    exact hne (by simp [hr])
  | clockFell => exact absurd (by simp) hne

/-- An attempt aborted with its phase going on (R80). -/
theorem aborted_fits (h : a.Fits r) (ht : a.timing ≠ none) (hn : a.failure = none) (place : Where) :
    ({ a with failure := some ⟨.aborted, place⟩ } : Attempt).Fits r where
  phase := h.phase
  written := h.written
  opened e := absurd e ht
  restarted := h.restarted
  followed e := absurd ((not_following h hn).symm.trans e) nofun
  failed f e := by cases e; exact .inl rfl
  early := h.early
  writing := nofun
  turning := nofun
  reading := nofun
  stopping := nofun

/-- The repeated start is seen (R63). -/
theorem restarted_fits (h : a.Fits r) (hp : a.phase = .restart) : ({ a with restarted := true } : Attempt).Fits r :=
  ⟨h.phase, h.written, h.opened, fun _ => hp, h.followed, h.failed, h.early, h.writing, h.turning, h.reading, h.stopping⟩

/-- The opening start is issued (R62). -/
theorem timed_fits (h : a.Fits r) (timing : AttemptTiming) :
    ({ a with timing := some timing } : Attempt).Fits r :=
  ⟨h.phase, h.written, nofun, h.restarted, h.followed, h.failed, h.early, h.writing, h.turning, h.reading, h.stopping⟩

end

end Sys2Proof.Machine
end

section
/-! SUPPORT. Pool and transfers stay sound through an admission (R22 to R28), a break (R39, R58), a reset (R40), and the commands
of a running attempt (R62 to R90). -/
namespace Sys2Proof.Machine

variable {s : State} {i : SlotId} {g : SegId} {p : PortId} {tag : Byte} {body : List Byte}

/-! ## Admission -/

/-- What the eleven checks have found when all pass (R25). -/
structure State.Admissible (s : State) (p : PortId) (tag : Byte) (a : Admission) : Prop where
  entry : s.mapEntry a.target = a.entry
  valid : a.entry.valid = true
  fields : ∃ flags rest, txnFields a.operation a.entry.subWidth flags rest = some a.fields
  tag : s.liveTag p tag = none
  up : (s.seg a.entry.segment).engine.down = false
  window : s.occupied p < Config.window
  slot : s.freeSlot = some a.slot

theorem lookup_eq_some {t : Byte} {u : TargetId} {e : MapEntry} (h : s.lookup t = some (u, e)) :
    s.mapEntry u = e ∧ e.valid = true := by
  unfold State.lookup at h
  split at h
  · split at h
    · next hv => cases h; exact ⟨rfl, hv⟩
    · cases h
  · cases h

theorem admissible_of_checkTxn {a : Admission} (h : s.checkTxn p tag body = .ok a) : s.Admissible p tag a := by
  unfold State.checkTxn at h
  split at h
  · next t o flags rest =>
    split at h
    · cases h
    · next u e hl =>
      obtain ⟨hentry, hvalid⟩ := lookup_eq_some hl
      split at h
      · cases h
      · next op _ =>
        split at h
        · cases h
        · next f hf =>
          unfold State.admitFields at h
          split at h; · cases h
          split at h; · cases h
          split at h; · cases h
          split at h; · cases h
          split at h; · cases h
          split at h; · cases h
          next htag hup hwin =>
          split at h
          · cases h
          · next i hi =>
            cases h
            exact ⟨hentry, hvalid, ⟨flags, rest, hf⟩, by simpa using htag, by simpa using hup, not_le.mp hwin, hi⟩
  · cases h

theorem takeSubAddress_isSome {op : Operation} {width : Nat} {rest rest' : List Byte} {sub : Option Nat}
    (h : takeSubAddress op width rest = some (sub, rest')) : sub.isSome = true ↔ width ≠ 0 ∧ op ≠ .probe := by
  unfold takeSubAddress at h
  split at h
  · next hp => cases h; simp [hp]
  · next hp =>
    split at h
    · cases h; simp
    · split at h <;> cases h; simp [hp]
    · next hw0 hw1 =>
      split at h <;> cases h
      exact iff_of_true rfl ⟨hw0, hp⟩

theorem takeReadLength_eq {op : Operation} {rest rest' : List Byte} {len : Option Nat}
    (h : takeReadLength op rest = some (len, rest')) :
    (op = .read ∨ op = .xfer → 1 ≤ len.getD 0) ∧ (¬(op = .read ∨ op = .xfer) → len = none) := by
  unfold takeReadLength at h
  split at h
  · next hop =>
    split at h
    · split at h
      · cases h
      · next b _ hb =>
        cases h
        refine ⟨fun _ => Nat.one_le_iff_ne_zero.mpr fun e => hb ?_, fun hn => absurd hop hn⟩
        exact BitVec.eq_of_toNat_eq e
    · cases h
  · next hop => cases h; exact ⟨fun h => absurd h hop, fun _ => rfl⟩

/-- The fields of a TXN body that check 4 passes are those of R20's table (R26). -/
theorem fieldsFit_admitted {a : Admission} {flags : Byte} {rest : List Byte} {n : Nat}
    (h : txnFields a.operation a.entry.subWidth flags rest = some a.fields) : (Slot.admitted p tag a n).FieldsFit := by
  unfold txnFields at h
  split at h
  · cases h
  · split at h
    · cases h
    · next hsub =>
      split at h
      · cases h
      · next len rest' hlen =>
        split at h
        · next hfit =>
          have hf := (Option.some.inj h).symm
          have sub := takeSubAddress_isSome hsub
          obtain ⟨hread, hnone⟩ := takeReadLength_eq hlen
          unfold Slot.FieldsFit Slot.admitted
          dsimp only [MapEntry.snapshot]
          rw [hf]
          refine ⟨sub, ?_⟩
          cases hop : a.operation <;> simp only [hop, writeDataFits] at hfit hread hnone ⊢
          · exact ⟨List.isEmpty_iff.mp hfit, hread (.inl trivial)⟩
          · exact ⟨by simpa using hfit, hnone (by simp)⟩
          · exact hread (.inr trivial)
          · exact ⟨List.isEmpty_iff.mp hfit, hnone (by simp)⟩
        · cases h

theorem mem_allSlots : ∀ i, i ∈ allSlots := by decide

/-- One more element can pass a selection from a list without repetition. -/
theorem length_filter_le_succ {f f' : SlotId → Bool} {i : SlotId} (l : List SlotId) (hl : l.Nodup)
    (h : ∀ j, f' j = true → f j = true ∨ j = i) : (l.filter f').length ≤ (l.filter f).length + 1 := by
  have split : (l.filter f').length ≤ (l.filter f).length + l.count i := by
    clear hl
    induction l with
    | nil => simp
    | cons j l ih =>
      rw [List.filter_cons, List.filter_cons, List.count_cons]
      by_cases hf' : f' j = true
      · rcases h j hf' with hf | rfl
        · simp only [hf', hf, if_true, List.length_cons]; omega
        · simp only [hf', if_true, beq_self_eq_true, List.length_cons]
          have := List.length_cons (a := j) (as := l.filter f)
          split <;> omega
      · rw [if_neg hf']
        have := List.length_cons (a := j) (as := l.filter f)
        split <;> omega
  exact split.trans (Nat.add_le_add_left (List.nodup_iff_count_le_one.mp hl i) _)

/-- An admission leaves pool and transfers sound (R22 to R24, R28, R41). -/
theorem sound_fillSlot (h : s.Sound) (hm : s.MapFits) {a : Admission} (ha : s.Admissible p tag a) :
    (s.fillSlot p tag a).Sound := by
  rw [fillSlot_eq]
  let r := Slot.admitted p tag a s.nextAdmission
  generalize ht : ({ (s.setSlot a.slot (Slot.admitted p tag a s.nextAdmission)).setSeg a.entry.segment
    { s.seg a.entry.segment with list := (s.seg a.entry.segment).list ++ [a.slot] } with
      nextAdmission := s.nextAdmission + 1 } : State) = t
  have free : (s.slot a.slot).state = .free := by
    have := List.find?_some ha.slot
    exact of_decide_eq_true this
  have slot j : t.slot j = if j = a.slot then r else s.slot j := by
    rw [← ht]
    show ((s.setSlot _ _).setSeg _ _).slot j = _
    rw [slot_setSeg, slot_setSlot_eq]
  have seg k : t.seg k = if k = a.entry.segment then
      { s.seg k with list := (s.seg k).list ++ [a.slot] } else s.seg k := by
    rw [← ht]
    have : ∀ u : State, ({ u with nextAdmission := s.nextAdmission + 1 } : State).seg k = u.seg k := fun u => by cases k <;> rfl
    rw [this, seg_setSeg_eq, seg_setSlot]
    split
    · next e => rw [e]
    · rfl
  have port q : t.port q = s.port q := by
    rw [← ht]
    show ((s.setSlot _ _).setSeg _ _).port q = _
    rw [port_setSeg, port_setSlot]
  have next : t.nextAdmission = s.nextAdmission + 1 := by rw [← ht]
  have own : t.slot a.slot = r := by rw [slot, if_pos rfl]
  have other {j} (hj : j ≠ a.slot) : t.slot j = s.slot j := by rw [slot, if_neg hj]
  have engine k : (t.seg k).engine = (s.seg k).engine := by rw [seg]; split <;> rfl
  have notHere {j : SlotId} (hj : (s.slot j).occupied = true) : j ≠ a.slot := by
    rintro rfl
    simp [Slot.occupied, free] at hj
  have absent k : a.slot ∉ (s.seg k).list := not_mem_list h.pool fun hw _ => notHere (occupied_of_waiting hw) rfl
  have live_ne {j} (hj : (s.slot j).live = true) (ho : (s.slot j).owner = p) (hg : (s.slot j).tag = tag) : False := by
    have := List.find?_eq_none.mp ha.tag j (mem_allSlots j)
    simp [hj, ho, hg] at this
  have occupied_cases {j} (hj : (t.slot j).occupied = true) :
      j = a.slot ∨ j ≠ a.slot ∧ t.slot j = s.slot j ∧ (s.slot j).occupied = true := by
    by_cases e : j = a.slot
    · exact .inl e
    · exact .inr ⟨e, other e, other e ▸ hj⟩
  have segment : r.snapshot.segment = a.entry.segment := rfl
  constructor
  · refine ⟨fun j => ?_, fun j hj => ?_, fun j k hj hk e => ?_, fun k j => ?_, fun k => ?_, fun k b hb => ?_, fun j hj => ?_,
      fun k hk => ?_, fun q j => ?_, fun q => ?_, fun j k hj hk ho hg => ?_⟩
    · rw [slot]
      split
      · exact Slot.fits_of (by simp [r, Slot.fitsB, Slot.admitted, Slot.cleared, Slot.waiting])
      · exact h.pool.slots j
    · rw [next]
      rcases occupied_cases hj with rfl | ⟨_, e, hj⟩
      · rw [own]; exact Nat.lt_succ_self _
      · rw [e]; exact (h.pool.numbered j hj).trans (Nat.lt_succ_self _)
    · rcases occupied_cases hj with rfl | ⟨hj', ej, hj⟩ <;> rcases occupied_cases hk with rfl | ⟨hk', ek, hk⟩
      · rfl
      · rw [own, ek] at e
        exact absurd (e : s.nextAdmission = _).symm (h.pool.numbered k hk).ne
      · rw [own, ej] at e
        exact absurd (e : _ = s.nextAdmission) (h.pool.numbered j hj).ne
      · rw [ej, ek] at e; exact h.pool.distinct j k hj hk e
    · by_cases e : j = a.slot
      · rw [e, own, seg]
        split
        · next hk => simp [r, Slot.admitted, Slot.waiting, hk, MapEntry.snapshot]
        · next hk => exact iff_of_false (absent k) fun e => hk (e.2.symm.trans segment)
      · rw [other e, ← h.pool.listed, seg]
        split
        · simp [e]
        · rfl
    · rw [seg]
      have kept : (s.seg k).list.Pairwise fun i j => (t.slot i).admission < (t.slot j).admission :=
        (h.pool.aged k).imp_of_mem fun {i j} hi hj hlt => by
          rwa [other fun e => absent k (e ▸ hi), other fun e => absent k (e ▸ hj)]
      split
      · refine List.pairwise_append.mpr ⟨kept, List.pairwise_singleton _ _, fun j hj i hi => ?_⟩
        rw [List.mem_singleton.mp hi, own, other fun e => absent k (e ▸ hj)]
        exact h.pool.numbered j (occupied_of_waiting ((h.pool.listed k j).mp hj).1)
      · exact kept
    · rw [engine] at hb
      have := h.pool.running k b hb
      rwa [other (notHere (occupied_of_active this.1))]
    · have hne : j ≠ a.slot := fun e => by rw [e, own] at hj; cases hj
      rw [other hne] at hj ⊢
      rw [engine]
      exact h.pool.active j hj
    · rw [engine] at hk
      rw [seg]
      split
      · next e => rw [e, ha.up] at hk; cases hk
      · exact h.pool.down k hk
    · rw [port, h.pool.queued q j]
      by_cases e : j = a.slot
      · rw [e, own, if_neg (by simp [free]), if_neg (by simp [r, Slot.admitted])]
      · rw [other e]
    · by_cases hq : q = p
      · refine le_trans (length_filter_le_succ (i := a.slot) _ (by decide) fun j hj => ?_)
          (Nat.succ_le_of_lt (hq ▸ ha.window : s.occupied q < Config.window))
        by_cases e : j = a.slot
        · exact .inr e
        · rw [other e] at hj; exact .inl hj
      · refine le_trans (List.Sublist.length_le (List.monotone_filter_right _ fun j hj => ?_)) (h.pool.window q)
        have e : j ≠ a.slot := fun e => by
          rw [e, own] at hj
          simp only [Bool.and_eq_true, decide_eq_true_eq] at hj
          exact hq hj.2.symm
        rwa [other e] at hj
    · by_cases ej : j = a.slot <;> by_cases ek : k = a.slot
      · rw [ej, ek]
      · rw [ej, own, other ek] at ho hg
        rw [other ek] at hk
        exact (live_ne hk ho.symm hg.symm).elim
      · rw [ek, own, other ej] at ho hg
        rw [other ej] at hj
        exact (live_ne hj ho hg).elim
      · rw [other ej, other ek] at *
        exact h.pool.tags j k hj hk ho hg
  · have opened j (hj : j ≠ a.slot) : t.opened j = s.opened j := by
      unfold State.opened; rw [other hj, engine]
    refine ⟨fun j hj => ?_, fun j hj => ?_, fun k b hb => ?_, fun j res hres => ?_⟩
    · rcases occupied_cases hj with rfl | ⟨_, e, hj⟩
      · rw [own]
        obtain ⟨flags, rest, hf⟩ := ha.fields
        exact fieldsFit_admitted hf
      · rw [e]; exact h.transfers.fields j hj
    · rcases occupied_cases hj with rfl | ⟨hj', e, hj⟩
      · rw [own]
        have range := hm a.target (by rw [ha.entry]; exact ha.valid)
        rw [ha.entry] at range
        have limit : a.entry.retryLimit ≤ 7 := by
          simp only [MapEntry.inRange, Bool.and_eq_true, decide_eq_true_eq] at range
          exact range.1.1.2
        exact ⟨limit, Nat.zero_le _, Nat.zero_le _, fun _ => (by decide : 0 < Config.lossLimit), Nat.zero_le _, Nat.zero_le _⟩
      · rw [e, opened j hj']; exact h.transfers.counts j hj
    · rw [engine] at hb
      rw [other (notHere (occupied_of_active (h.pool.running k b hb).1))]
      exact h.transfers.attempts k b hb
    · by_cases e : j = a.slot
      · rw [e, own] at hres; cases hres
      · rw [other e] at hres ⊢; exact h.transfers.results j res hres

theorem sound_takeTxn (h : s.Sound) (hm : s.MapFits) : (s.takeTxn p tag body).Sound := by
  unfold State.takeTxn
  split
  · next a ha => exact sound_fillSlot h hm (admissible_of_checkTxn ha)
  · exact sound_gate s p h fun e t _ ht => ht.of_pool (pool_refuse _ _ _ _ _ _)

end Sys2Proof.Machine
end

section
/-! SUPPORT. A break restarts its port (R39, R58, R112, R124, R168), and pool and transfers stay sound there and at a reset. -/
namespace Sys2Proof.Machine

variable {s t : State} {p : PortId}

/-! ## What the restart of a port leaves -/

theorem restarted_eq_broken (v : Port) : v.restarted = v.broken := by
  have abandoned : v.countAbandoned = { v with counters := { v.counters with
      abandoned := if v.assembly.state = .receiving then bump v.counters.abandoned else v.counters.abandoned } } := by
    unfold Port.countAbandoned; split <;> rfl
  unfold Port.restarted Port.broken
  rw [abandoned]
  cases hw : v.pendingSwitch <;> cases ht : v.tx <;>
    simp [Port.applyInHold, Transmitter.afterBreak, Assembly.idle, LineFormat.markLevel]

/-- The restart of a port at some slots, whose records and lists agree (R39). -/
structure RestartedAt (s : State) (p : PortId) (l : List SlotId) (t : State) : Prop where
  slots : ∀ j, t.slot j = if j ∈ l then (s.slot j).broken p else s.slot j
  segs : ∀ g, t.seg g =
    { s.seg g with list := (s.seg g).list.filter fun j => decide (¬(j ∈ l ∧ (s.slot j).owner = p)) }
  rest : t = { s with slots := t.slots, segA := t.segA, segB := t.segB }

/-- Free records are cleared, and the lists hold the waiting requests of their segments (R22, R41). -/
structure State.Listed (s : State) : Prop where
  free : ∀ i, (s.slot i).state = .free → s.slot i = Slot.cleared
  listed : ∀ g i, i ∈ (s.seg g).list ↔ (s.slot i).waiting = true ∧ (s.slot i).snapshot.segment = g

theorem list_filter_absent {l : List SlotId} {i : SlotId} (f : SlotId → Bool) (hi : i ∉ l) (hf : ∀ j, j ≠ i → f j = true) :
    l.filter f = l := List.filter_eq_self.mpr fun j hj => hf j fun e => hi (e ▸ hj)

theorem broken_cleared (p : PortId) : Slot.cleared.broken p = Slot.cleared := by
  unfold Slot.broken; split <;> rfl

/-- A port restart at one slot (R39). -/
theorem restartSlot_spec (h : s.Listed) (i : SlotId) : RestartedAt s p [i] (s.restartSlot p i) := by
  have keep (g : SegId) (hi : (s.slot i).owner ≠ p ∨ (s.slot i).waiting = false) :
      s.seg g = { s.seg g with list := (s.seg g).list.filter fun j => decide (¬(j ∈ [i] ∧ (s.slot j).owner = p)) } := by
    have : ((s.seg g).list.filter fun j => decide (¬(j ∈ [i] ∧ (s.slot j).owner = p))) = (s.seg g).list := by
      refine List.filter_eq_self.mpr fun j hj => decide_eq_true ?_
      rintro ⟨hm, ho⟩
      rw [List.mem_singleton.mp hm] at hj ho
      have := ((h.listed g i).mp hj).1
      rcases hi with hi | hi
      · exact hi ho
      · rw [hi] at this; cases this
    rw [this]
  have slots (r : Slot) (hr : r = (s.slot i).broken p) (j : SlotId) :
      (s.setSlot i r).slot j = if j ∈ [i] then (s.slot j).broken p else s.slot j := by
    rw [slot_setSlot_eq, hr]
    simp only [List.mem_singleton]
    split
    · next e => rw [e]
    · rfl
  have same (r : Slot) (hr : r = (s.slot i).broken p) (hi : (s.slot i).owner ≠ p ∨ (s.slot i).waiting = false) :
      RestartedAt s p [i] (s.setSlot i r) :=
    ⟨slots r hr, fun g => (seg_setSlot s i r g).trans (keep g hi), rfl⟩
  have stays (hs : (s.slot i).broken p = s.slot i) (hi : (s.slot i).owner ≠ p ∨ (s.slot i).waiting = false) :
      RestartedAt s p [i] s := by
    have := same (s.slot i) hs.symm hi
    rwa [setSlot_slot] at this
  have leaves (ho : (s.slot i).owner = p) (hw : (s.slot i).waiting = true) (hr : Slot.cleared = (s.slot i).broken p) :
      RestartedAt s p [i] ((s.unlist i).releaseSlot i) := by
    refine ⟨fun j => ?_, fun g => ?_, ?_⟩
    · rw [State.releaseSlot, slot_setSlot_eq, State.unlist, slot_setSeg, ← slot_setSlot_eq]
      exact slots _ hr j
    · rw [State.releaseSlot, seg_setSlot, seg_unlist]
      have list : ((s.seg g).list.filter fun j => decide (¬(j ∈ [i] ∧ (s.slot j).owner = p))) =
          (s.seg g).list.filter fun j => decide (j ≠ i) := by
        refine List.filter_congr fun j _ => decide_eq_decide.mpr ?_
        rw [List.mem_singleton]
        exact ⟨fun hn e => hn ⟨e, e ▸ ho⟩, fun hn e => hn e.1⟩
      rw [list]
      split
      · rfl
      · next hg =>
        rw [list_filter_absent _ (fun hi => hg ((h.listed g i).mp hi).2.symm) fun j hj => decide_eq_true hj]
    · unfold State.releaseSlot State.unlist
      cases (s.slot i).snapshot.segment <;> rfl
  unfold State.restartSlot
  split
  · next ho =>
    split
    · next hf => exact stays (by rw [h.free i hf, broken_cleared]) (.inr (by simp [Slot.waiting, hf]))
    · next hf => exact leaves ho (by simp [Slot.waiting, hf]) (by simp [Slot.broken, ho, hf])
    · next hf => exact leaves ho (by simp [Slot.waiting, hf]) (by simp [Slot.broken, ho, hf])
    · next hf => exact same _ (by simp [Slot.broken, ho, hf]) (.inr (by simp [Slot.waiting, hf]))
    · next hf => exact same _ (by simp [Slot.broken, ho, hf]) (.inr (by simp [Slot.waiting, hf]))
  · next ho => exact stays (by simp [Slot.broken, ho]) (.inl ho)

theorem broken_waiting {r : Slot} : (r.broken p).waiting = true ↔ r.waiting = true ∧ r.owner ≠ p := by
  unfold Slot.broken
  split
  · next ho =>
    split
    · next ha => simp [Slot.waiting, ha]
    · simp [Slot.waiting, Slot.cleared, ho]
  · next ho => simp [ho]

theorem broken_of_waiting {r : Slot} (h : (r.broken p).waiting = true) : r.broken p = r :=
  if_neg (broken_waiting.mp h).2

theorem RestartedAt.listed {l : List SlotId} (h : s.Listed) (r : RestartedAt s p l t) : t.Listed where
  free j hj := by
    rw [r.slots] at hj ⊢
    split at hj
    · next hm =>
      rw [if_pos hm]
      unfold Slot.broken at hj ⊢
      split at hj
      · next ho =>
        rw [if_pos ho]
        split at hj
        · next ha => rw [show (s.slot j).state = .free from hj] at ha; cases ha
        · next ha => rw [if_neg ha]
      · next ho => rw [if_neg ho]; exact h.free j hj
    · next hm => rw [if_neg hm]; exact h.free j hj
  listed g j := by
    rw [r.segs, r.slots, List.mem_filter, h.listed, decide_eq_true_eq]
    split
    · next hm =>
      constructor
      · rintro ⟨⟨hw, hg⟩, hn⟩
        have hb : ((s.slot j).broken p).waiting = true := broken_waiting.mpr ⟨hw, fun ho => hn ⟨hm, ho⟩⟩
        rw [broken_of_waiting hb]
        exact ⟨hw, hg⟩
      · rintro ⟨hb, hg⟩
        rw [broken_of_waiting hb] at hg
        obtain ⟨hw, ho⟩ := broken_waiting.mp hb
        exact ⟨⟨hw, hg⟩, fun e => ho e.2⟩
    · next hm => exact and_iff_left fun e => hm e.1

theorem owner_broken_of_listed {r : Slot} (h : r.owner ≠ p) : r.broken p = r := if_neg h

/-- The restart of a port at several slots, one after another (R39). -/
theorem restartSlots_spec (l : List SlotId) (hl : l.Nodup) (s : State) (h : s.Listed) :
    RestartedAt s p l (l.foldl (fun s i => s.restartSlot p i) s) := by
  induction l generalizing s with
  | nil => exact ⟨fun j => by simp, fun g => by simp, rfl⟩
  | cons i l ih =>
    obtain ⟨hi, hl⟩ := List.nodup_cons.mp hl
    have first := restartSlot_spec (p := p) h i
    have then_ := ih hl _ (first.listed h)
    rw [List.foldl_cons]
    generalize s.restartSlot p i = u at first then_
    have other {j} (hj : j ∈ l) : u.slot j = s.slot j :=
      (first.slots j).trans (if_neg fun hm => hi (by rw [← List.mem_singleton.mp hm]; exact hj))
    refine ⟨fun j => ?_, fun g => ?_, ?_⟩
    · rw [then_.slots]
      by_cases hj : j ∈ l
      · rw [if_pos hj, if_pos (List.mem_cons_of_mem i hj), other hj]
      · rw [if_neg hj, first.slots]
        by_cases e : j = i
        · rw [if_pos (List.mem_singleton.mpr e), if_pos (by rw [e]; exact List.mem_cons_self)]
        · rw [if_neg fun hm => e (List.mem_singleton.mp hm), if_neg fun hm => (List.mem_cons.mp hm).elim e hj]
    · rw [then_.segs, first.segs]
      refine congrArg (fun x => { s.seg g with list := x }) ?_
      rw [List.filter_filter]
      refine List.filter_congr fun j _ => ?_
      rw [← Bool.decide_and]
      refine decide_eq_decide.mpr ?_
      by_cases hj : j ∈ l
      · rw [other hj]; simp only [List.mem_cons, List.not_mem_nil]; tauto
      · simp only [List.mem_cons, List.not_mem_nil]; tauto
    · rw [then_.rest, first.rest]

/-! ## The restarted part -/

theorem seg_broken (s : State) (p : PortId) (g : SegId) :
    (s.broken p).seg g = (s.seg g).broken p fun i => (s.slot i).owner := by cases g <;> rfl

theorem slot_broken (s : State) (p : PortId) (i : SlotId) : (s.broken p).slot i = (s.slot i).broken p := by
  simp [State.slot, State.broken, -slots_get]

theorem port_broken (s : State) (p q : PortId) : (s.broken p).port q = if q = p then (s.port p).broken else s.port q := by
  rw [← port_setPort_eq]
  simp only [State.port, State.broken, State.setPort]

section
variable (s : State) (p : PortId)
theorem pending_broken : (s.broken p).pending = s.pending := by simp only [State.broken]
theorem resetn_broken : (s.broken p).resetn = s.resetn := by simp only [State.broken]
theorem mapEntry_broken (u : TargetId) : (s.broken p).mapEntry u = s.mapEntry u := by simp only [State.mapEntry, State.broken]
theorem managers_broken : (s.broken p).managers = s.managers := by simp only [State.broken]
theorem nextAdmission_broken : (s.broken p).nextAdmission = s.nextAdmission := by simp only [State.broken]
theorem freeCount_broken : (s.broken p).freeCount = s.freeCount := by simp only [State.broken]
end

theorem seg_dropRecovery (s : State) (p : PortId) (g k : SegId) : (s.dropRecovery p g).seg k =
    if k = g ∧ (s.seg k).recovery.map Recovery.port = some p then { s.seg k with recovery := none } else s.seg k := by
  unfold State.dropRecovery
  split
  · next r hr =>
    split
    · next hp =>
      rw [seg_setSeg_eq]
      by_cases e : k = g
      · rw [if_pos e, if_pos ⟨e, by rw [e, hr]; simp [hp]⟩, e]
      · rw [if_neg e, if_neg fun h => e h.1]
    · next hp =>
      rw [if_neg]
      rintro ⟨e, h⟩
      rw [e, hr] at h
      exact hp (by simpa using h)
  · next hr =>
    rw [if_neg]
    rintro ⟨e, h⟩
    rw [e, hr] at h
    cases h

theorem dropRecovery_rest (s : State) (p : PortId) (g : SegId) :
    ∃ a b, s.dropRecovery p g = { s with segA := a, segB := b } := by
  unfold State.dropRecovery
  split
  · split
    · cases g <;> exact ⟨_, _, rfl⟩
    · exact ⟨_, _, rfl⟩
  · exact ⟨_, _, rfl⟩

theorem State.PoolFits.toListed (h : s.PoolFits) : s.Listed := ⟨fun i => (h.slots i).free, h.listed⟩

/-- The restart of a port leaves the part as `State.broken` tells, and ends the break at once where the line so stands at mark
(R39, R112, R124, R126, R168). -/
theorem portRestart_eq (h : s.PoolFits) : s.portRestart p = (s.broken p).endBreakIfMark p := by
  unfold State.portRestart
  refine congrArg (fun t : State => t.endBreakIfMark p) (?_ : _ = s.broken p)
  have listed : (s.modPort p Port.restarted).Listed :=
    ⟨h.toListed.free, fun g i => by rw [State.modPort, seg_setPort]; exact h.listed g i⟩
  have spec := restartSlots_spec (p := p) allSlots (by decide) _ listed
  generalize allSlots.foldl (fun s i => s.restartSlot p i) (s.modPort p Port.restarted) = t at spec
  have slots i : t.slot i = (s.slot i).broken p := (spec.slots i).trans (if_pos (mem_allSlots i))
  have segs g : t.seg g = { s.seg g with list := (s.seg g).list.filter fun i => decide ((s.slot i).owner ≠ p) } := by
    have := spec.segs g
    rw [State.modPort, seg_setPort] at this
    rw [this]
    refine congrArg (fun x => { s.seg g with list := x }) ?_
    exact List.filter_congr fun i _ => decide_eq_decide.mpr (not_congr (and_iff_right (mem_allSlots i)))
  have dropped g : ((t.dropRecovery p .A).dropRecovery p .B).seg g = (s.broken p).seg g := by
    rw [seg_broken, seg_dropRecovery, seg_dropRecovery, segs]
    cases g <;> simp only [reduceCtorEq, false_and, if_false, true_and, Seg.broken] <;> split <;> rfl
  have rest : ∃ a b, (t.dropRecovery p .A).dropRecovery p .B =
      { s.modPort p Port.restarted with slots := t.slots, segA := a, segB := b } := by
    obtain ⟨a, b, first⟩ := dropRecovery_rest t p .A
    obtain ⟨a', b', second⟩ := dropRecovery_rest (t.dropRecovery p .A) p .B
    exact ⟨a', b', by rw [second, first, spec.rest]⟩
  obtain ⟨a, b, rest⟩ := rest
  generalize (t.dropRecovery p .A).dropRecovery p .B = u at rest dropped ⊢
  subst rest
  exact State.ext_blocks (pending_broken s p).symm (resetn_broken s p).symm (fun u => (mapEntry_broken s p u).symm)
    (fun i => (slots i).trans (slot_broken s p i).symm) dropped
    (fun q => (port_setPort_eq s p q _).trans (by rw [port_broken, restarted_eq_broken])) (managers_broken s p).symm
    (nextAdmission_broken s p).symm (freeCount_broken s p).symm

/-! ## The invariants after it -/

theorem broken_continues (r : Slot) (p : PortId) : (r.broken p).Continues r := by
  unfold Slot.broken
  split
  · split
    · exact fun h => ⟨h, rfl, nofun⟩
    · exact continues_cleared r
  · exact .refl r

theorem broken_active {r : Slot} : (r.broken p).state = .active ↔ r.state = .active := by
  unfold Slot.broken
  split
  · split
    · exact Iff.rfl
    · next ha => exact iff_of_false (by decide) ha
  · exact Iff.rfl

theorem broken_segment {r : Slot} (h : (r.broken p).occupied = true) : (r.broken p).snapshot = r.snapshot :=
  snapshot_of_request (broken_continues r p h).2.1

theorem broken_fits {r : Slot} (h : r.Fits) : (r.broken p).Fits := by
  unfold Slot.broken
  split
  · split
    · next ha =>
      exact ⟨fun e => absurd (ha.symm.trans e) nofun, fun _ => ha, h.result, h.retry, h.lifetime, h.deadline⟩
    · exact Slot.fits_of (by decide)
  · exact h

/-- A port restart leaves pool and transfers sound (R39, R58). -/
theorem sound_broken (h : s.Sound) (p : PortId) : (s.broken p).Sound := by
  have slot := slot_broken s p
  have engine g : ((s.broken p).seg g).engine = (s.seg g).engine := by rw [seg_broken]; rfl
  have list g : ((s.broken p).seg g).list = (s.seg g).list.filter fun i => decide ((s.slot i).owner ≠ p) := by
    rw [seg_broken]; rfl
  have continues i : ((s.broken p).slot i).Continues (s.slot i) := by rw [slot]; exact broken_continues _ _
  obtain ⟨numbered, distinct, window, tags⟩ := identities_of_continues h.pool continues (nextAdmission_broken s p)
  constructor
  · refine ⟨fun i => ?_, numbered, distinct, fun g i => ?_, fun g => ?_, fun g a ha => ?_, fun i hi => ?_, fun g hg => ?_,
      fun q i => ?_, window, tags⟩
    · rw [slot]; exact broken_fits (h.pool.slots i)
    · rw [list, slot, List.mem_filter, h.pool.listed, decide_eq_true_eq]
      constructor
      · rintro ⟨⟨hw, hg⟩, ho⟩
        rw [owner_broken_of_listed ho]
        exact ⟨hw, hg⟩
      · rintro ⟨hw, hg⟩
        rw [broken_of_waiting hw] at hg
        obtain ⟨hw, ho⟩ := broken_waiting.mp hw
        exact ⟨⟨hw, hg⟩, ho⟩
    · rw [list]
      refine ((h.pool.aged g).filter _).imp_of_mem fun {i j} hi hj hlt => ?_
      rw [slot, slot, owner_broken_of_listed (of_decide_eq_true (List.mem_filter.mp hi).2),
        owner_broken_of_listed (of_decide_eq_true (List.mem_filter.mp hj).2)]
      exact hlt
    · rw [engine] at ha
      obtain ⟨hs, hg⟩ := h.pool.running g a ha
      rw [slot]
      have hact := broken_active (p := p).mpr hs
      exact ⟨hact, by rw [broken_segment (occupied_of_active hact), hg]⟩
    · rw [slot] at hi ⊢
      rw [broken_segment (occupied_of_active hi), engine]
      exact h.pool.active i (broken_active.mp hi)
    · rw [engine] at hg
      rw [list, h.pool.down g hg]
      rfl
    · rw [port_broken, slot]
      by_cases ho : (s.slot i).owner = p
      · have left : ¬(((s.slot i).broken p).state = .answer ∧ ((s.slot i).broken p).owner = q) := by
          rintro ⟨ha, _⟩
          unfold Slot.broken at ha
          rw [if_pos ho] at ha
          split at ha
          · next hact => rw [show (s.slot i).state = .answer from ha] at hact; cases hact
          · cases ha
        rw [if_neg left]
        split
        · rfl
        · next hq => rw [h.pool.queued q i, if_neg fun e => hq (e.2.symm.trans ho)]
      · rw [owner_broken_of_listed ho]
        split
        · next hq =>
          rw [if_neg fun e => ho (e.2.trans hq)]
          rfl
        · exact h.pool.queued q i
  · refine ⟨fun i hi => ?_, fun i hi => ?_, fun g a ha => ?_, fun i res hres => ?_⟩
    · obtain ⟨ho, hr, _⟩ := continues i hi
      exact (h.transfers.fields i ho).of_request hr
    · obtain ⟨ho, hr, _⟩ := continues i hi
      have opened : (s.broken p).opened i = s.opened i := by
        unfold State.opened; rw [snapshot_of_request hr, engine]
      have c := h.transfers.counts i ho
      rw [opened]
      rw [slot] at hi ⊢
      unfold Slot.broken at hi ⊢
      split at hi
      · next hp =>
        rw [if_pos hp]
        split at hi
        · next ha => rw [if_pos ha]; exact ⟨c.limit, c.retries, c.losses, c.losing, c.passed, c.attempts⟩
        · cases hi
      · next hp => rw [if_neg hp]; exact c
    · rw [engine] at ha
      have hact := (h.pool.running g a ha).1
      have hocc : ((s.broken p).slot a.slot).occupied = true := by
        rw [slot]; exact occupied_of_active (broken_active.mpr hact)
      exact (h.transfers.attempts g a ha).of_request (continues _ hocc).2.1
    · rw [slot] at hres ⊢
      unfold Slot.broken at hres ⊢
      split at hres
      · next hp =>
        split at hres
        · next ha =>
          have : (s.slot i).result.isSome = true := by rw [show (s.slot i).result = some res from hres]; rfl
          rw [(h.pool.slots i).result, ha] at this; cases this
        · cases hres
      · next hp => rw [if_neg hp]; exact h.transfers.results i res hres

/-! ## Reset -/

theorem pool_inReset (s : State) : s.inReset.pool = State.reset.pool :=
  pool_eq (fun i => by rw [slot_inReset, slot_reset]) (fun g => by rw [seg_inReset, seg_reset]; rfl)
    (fun g => by rw [seg_inReset, seg_reset]; rfl) (fun q => by rw [port_inReset, port_reset]; rfl) rfl

/-- A reset leaves pool and transfers sound (R40, R59, R190). -/
theorem sound_started (s : State) (a b : Levels) : (s.started a b).Sound := by
  refine resetIsLegal.sound.of_pool (Eq.trans ?_ (pool_inReset s))
  have restarted (l : Levels) : (Seg.restarted l).list = [] ∧ (Seg.restarted l).engine = .check false := by
    unfold Seg.restarted; dsimp only; split <;> exact ⟨rfl, rfl⟩
  have seg : ∀ g, ∃ l, (s.started a b).seg g = Seg.restarted l := forall_seg ⟨a, rfl⟩ ⟨b, rfl⟩
  refine pool_eq (fun _ => rfl) (fun g => ?_) (fun g => ?_) (fun _ => rfl) rfl <;>
  · obtain ⟨l, hl⟩ := seg g
    rw [hl, seg_inReset]
    simp [restarted l, Seg.resetHeld]

end Sys2Proof.Machine
end

section
/-! SUPPORT. Pool and transfers stay sound through the commands of a running attempt and of the bus monitor (R62 to R90). -/
namespace Sys2Proof.Machine

/-! ## What the monitor leaves -/

section
variable (v : Seg)

theorem seeLow_keeps (scl sda : Bool) : (v.seeLow scl sda).list = v.list ∧ (v.seeLow scl sda).engine = v.engine := by
  rw [seeLow_eq]; exact ⟨rfl, rfl⟩

theorem start_keeps : (v.monitorStart.see true false).list = v.list ∧ (v.monitorStart.see true false).engine = v.engine := by
  rw [start_eq]; exact ⟨rfl, rfl⟩

theorem ownStop_keeps : v.ownStop.list = v.list ∧ v.ownStop.engine = v.engine := by
  rw [ownStop_eq]; exact ⟨rfl, rfl⟩

theorem monitorStop_keeps (w : Seg) : w.monitorStop.list = w.list ∧ w.monitorStop.engine = w.engine := by
  unfold Seg.monitorStop; split <;> exact ⟨rfl, rfl⟩

theorem monitorHigh_keeps (w : Seg) : w.monitorHigh.list = w.list ∧ w.monitorHigh.engine = w.engine := by
  unfold Seg.monitorHigh; split <;> exact ⟨rfl, rfl⟩

theorem seeLoss_keeps (how : LossCause) : (v.seeLoss how).list = v.list ∧ (v.seeLoss how).engine = v.engine := by
  cases how <;> exact seeLow_keeps v _ _

end

variable {s t : State} {g : SegId} {a c : Attempt}

/-- A segment that changes neither its list nor its engine leaves pool and transfers sound, and its attempt running. -/
theorem sound_modSeg_of_keeps {f : Seg → Seg} (h : s.Sound)
    (hk : (f (s.seg g)).list = (s.seg g).list ∧ (f (s.seg g)).engine = (s.seg g).engine) : (s.modSeg g f).Sound :=
  h.of_pool (pool_modSeg hk.1 (by rw [hk.2]))

/-! ## A running attempt -/

/-- What the invariants say of a running attempt (R20, R67, R78). -/
structure State.Runs (s : State) (g : SegId) (a : Attempt) : Prop where
  engine : (s.seg g).engine = .run a
  active : (s.slot a.slot).state = .active
  segment : (s.slot a.slot).snapshot.segment = g
  fields : (s.slot a.slot).FieldsFit
  fits : a.Fits (s.slot a.slot)
  counts : (s.slot a.slot).CountsFit a.timing.isSome

theorem State.Sound.runs (h : s.Sound) (hr : (s.seg g).engine = .run a) : s.Runs g a := by
  obtain ⟨hs, hg⟩ := h.pool.running g a hr
  have opened : s.opened a.slot = a.timing.isSome := by unfold State.opened; rw [hg, hr]
  exact ⟨hr, hs, hg, h.transfers.fields _ (occupied_of_active hs), h.transfers.attempts g a hr,
    opened ▸ h.transfers.counts _ (occupied_of_active hs)⟩

/-- A command that meets a running attempt keeps pool and transfers sound when its effect on that attempt does. -/
theorem sound_inRun {f : Attempt → State} (h : s.Sound) (hf : ∀ a, s.Runs g a → (f a).Sound) : (s.inRun g f).Sound := by
  unfold State.inRun
  split
  · next a ha =>
    refine hf a (h.runs ?_)
    cases he : (s.seg g).engine <;> rw [he] at ha <;> cases ha
    rfl
  · exact h

/-- An attempt that goes on, with the record of its request, keeps pool and transfers sound when it fits that request. -/
theorem sound_runs {r : Slot} (h : s.Sound) (hr : s.Runs g c) (slots : ∀ j, t.slot j = if j = c.slot then r else s.slot j)
    (request : r.request = (s.slot c.slot).request) (state : r.state = .active) (orphan : r.orphan = (s.slot c.slot).orphan)
    (fits : r.Fits) (result : r.result = none) (lists : ∀ k, (t.seg k).list = (s.seg k).list)
    (engine : (t.seg g).engine = .run a) (others : ∀ k, k ≠ g → (t.seg k).engine = (s.seg k).engine)
    (slot : a.slot = c.slot) (ready : ∀ q, (t.port q).ready = (s.port q).ready) (next : t.nextAdmission = s.nextAdmission)
    (attempt : a.Fits (s.slot c.slot)) (counts : r.CountsFit a.timing.isSome) : t.Sound := by
  have own : t.slot c.slot = r := by rw [slots, if_pos rfl]
  have waiting := not_waiting_of_active hr.active
  have m : s.Moved t c.slot := by
    refine moved_inPlace h.pool request (occupied_of_active hr.active) orphan fits ?_ ?_ slots lists (fun k hk => ?_)
      (.inr ⟨c, a, ?_, rfl, ?_, slot, state⟩) ready next
    · rw [waiting, not_waiting_of_active state]
    · simp [state, hr.active]
    · rw [hr.segment] at hk; rw [others k hk]
    · rw [hr.segment, hr.engine]; rfl
    · rw [hr.segment, engine]; rfl
  refine ⟨h.pool.of_moved m, h.transfers.of_moved h.pool m (fun _ => ?_) (fun b hb _ => ?_) fun res hres => ?_⟩
  · have segment : r.snapshot.segment = g := by rw [snapshot_of_request request, hr.segment]
    have opened : t.opened c.slot = a.timing.isSome := by unfold State.opened; rw [own, segment, engine]
    rw [own, opened]; exact counts
  · rw [hr.segment, engine] at hb
    cases hb
    rw [own]; exact attempt.of_request request
  · rw [own, result] at hres; cases hres

theorem State.Runs.noResult (h : s.Sound) (hr : s.Runs g c) : (s.slot c.slot).result = none := by
  rw [← Option.not_isSome_iff_eq_none, (h.pool.slots _).result, hr.active]; decide

/-- A running attempt replaced by one of the same request that fits it, and that is opened if and only if it was. -/
theorem sound_modRun {f : Seg → Seg} (h : s.Sound) (hr : s.Runs g c) (list : (f (s.seg g)).list = (s.seg g).list)
    (engine : (f (s.seg g)).engine = .run a) (slot : a.slot = c.slot) (attempt : a.Fits (s.slot c.slot))
    (timing : a.timing = c.timing) : (s.modSeg g f).Sound := by
  refine sound_runs (r := s.slot c.slot) (a := a) h hr (fun j => ?_) rfl hr.active rfl (h.pool.slots _) (hr.noResult h)
    (fun k => ?_) ?_ (fun k hk => by rw [seg_modSeg_ne hk]) slot (fun q => ?_) (nextAdmission_setSeg _ _ _) attempt
    (timing ▸ hr.counts)
  · rw [State.modSeg, slot_setSeg]
    split
    · next e => rw [e]
    · rfl
  · by_cases hk : k = g
    · rw [hk, seg_modSeg, retime_list, list]
    · rw [seg_modSeg_ne hk]
  · rw [seg_modSeg, retime_engine, engine]
  · rw [State.modSeg, port_setSeg]

theorem sound_setAttempt (h : s.Sound) (hr : s.Runs g c) (slot : a.slot = c.slot) (attempt : a.Fits (s.slot c.slot))
    (timing : a.timing = c.timing) : (s.setAttempt g a).Sound := sound_modRun h hr rfl rfl slot attempt timing

/-- The opening start (R62, R78). -/
theorem sound_openAttempt (h : s.Sound) (hr : s.Runs g a) (ht : a.timing = none) : (s.openAttempt g a).Sound := by
  unfold State.openAttempt
  dsimp only
  generalize AttemptTiming.capture (s.slot a.slot) = capture
  have f := h.pool.slots a.slot
  have c := hr.counts
  have keeps := start_keeps
    { s.seg g with
      inForce := (s.seg g).setup.timing
      engine := .run { a with timing := some (capture (s.seg g).setup.timing) } }
  refine sound_runs (r := { s.slot a.slot with attempts := (s.slot a.slot).attempts + 1 })
    (a := { a with timing := some (capture (s.seg g).setup.timing) }) h hr (fun j => ?_) rfl hr.active rfl
    ⟨fun e => absurd (hr.active.symm.trans e) nofun, f.orphan, f.result, f.retry, f.lifetime, f.deadline⟩
    (hr.noResult h) (fun k => ?_) ?_ (fun k hk => ?_) rfl (fun q => ?_) (nextAdmission_setSeg _ _ _)
    (timed_fits hr.fits _) ⟨c.limit, c.retries, c.losses, c.losing, c.passed, ?_⟩
  · rw [State.modSeg, slot_setSeg, State.modSlot, slot_setSlot_eq]
  · by_cases hk : k = g
    · rw [hk, seg_modSeg, retime_list, State.modSlot, seg_setSlot]; exact keeps.1
    · rw [seg_modSeg_ne hk, State.modSlot, seg_setSlot]
  · rw [seg_modSeg, retime_engine, State.modSlot, seg_setSlot]; exact keeps.2
  · rw [seg_modSeg_ne hk, State.modSlot, seg_setSlot]
  · rw [State.modSeg, port_setSeg, State.modSlot, port_setSlot]
  · have := c.attempts
    rw [ht, if_neg (by simp [hr.active])] at this
    exact le_trans (show (s.slot a.slot).attempts + 1 ≤ (s.slot a.slot).retriesUsed + (s.slot a.slot).losses + 1 by omega)
      (Nat.add_le_add_left (by simp [hr.active]) _)

/-! ## The ends of a running attempt -/

theorem endsWith_some (a : Attempt) (f : Failure) : a.EndsWith (some f) := nofun

theorem endsWith_following (h : a.Fits r) (hf : a.following = true) : a.EndsWith a.failure := fun e => by
  rw [not_following h e] at hf; cases hf

theorem sound_endFollowing (h : s.Sound) (hr : s.Runs g a) (hf : a.following = true) : (s.endFollowing g a).Sound :=
  sound_endAttempt h hr.engine rfl hr.fits (endsWith_following hr.fits hf)

theorem endsWith_of_stopsWith {kind : Option FailKind} (hs : a.stopsWith kind = true) : a.EndsWith a.failure := by
  intro e
  refine ⟨e, ?_⟩
  simp only [Attempt.stopsWith, Attempt.aborting, e, Bool.and_eq_true, Bool.or_eq_true, decide_eq_true_eq] at hs
  simpa using hs.1.1

/-- The stop of an attempt completes (R64, R73 to R77). -/
theorem sound_completeStop {kind : Option FailKind} {toCheck : Bool} (h : s.Sound) (hr : s.Runs g a)
    (hs : a.stopsWith kind = true) : (s.completeStop g a toCheck).Sound := by
  have stopped := sound_modSeg_of_keeps (f := Seg.ownStop) h (ownStop_keeps (s.seg g))
  refine sound_endAttempt (c := a) stopped ?_ rfl ?_ (endsWith_of_stopsWith hs)
  · rw [seg_modSeg, retime_engine, (ownStop_keeps _).2, hr.engine]
  · rw [State.modSeg, slot_setSeg]; exact hr.fits

theorem sound_stopped {kind : Option FailKind} {toCheck : Bool} (h : s.Sound) :
    (s.inRun g fun a => if a.stopsWith kind then s.completeStop g a toCheck else s).Sound :=
  sound_inRun h fun a hr => by
    split
    · next hs => exact sound_completeStop h hr hs
    · exact h

/-- A stretch timeout (R76, R94, R100). -/
theorem sound_stretchOut (h : s.Sound) (hr : s.Runs g c) (slot : a.slot = c.slot) (fits : a.Fits (s.slot c.slot)) :
    (s.stretchOut g a).Sound := by
  unfold State.stretchOut
  split <;> exact sound_endAttempt h hr.engine slot.symm (slot ▸ fits) (endsWith_some a _)

/-- A loss of arbitration while the engine drives (R72, R76, R88, R89). -/
theorem sound_loseArbitration {how : LossCause} (h : s.Sound) (hr : s.Runs g c) (slot : a.slot = c.slot)
    (fits : a.Fits (s.slot c.slot)) (timing : a.timing = c.timing) (started : a.phase ≠ .start) :
    (s.loseArbitration g a how).Sound := by
  unfold State.loseArbitration
  split
  · exact sound_endAttempt h hr.engine slot.symm (slot ▸ fits) (endsWith_some a _)
  · split
    · refine sound_endAttempt (a := a.lose) h hr.engine slot.symm ?_ (endsWith_some _ _)
      show a.lose.Fits (s.slot a.slot)
      rw [slot]
      exact lose_fits fits (timed_of_started fits started) started a.readData fun e => absurd rfl e
    · have same : (a.readBy how).lose.slot = a.slot ∧ (a.readBy how).lose.timing = a.timing := by
        rw [readBy_eq]; exact ⟨rfl, rfl⟩
      exact sound_setAttempt h hr (same.1.trans slot) (readBy_lose_fits fits started how) (same.2.trans timing)

/-! ## What an attempt makes of the wire -/

theorem sound_meetStart (h : s.Sound) (g : SegId) : (s.meetStart g).Sound := by
  unfold State.meetStart
  split
  · next a ha =>
    split
    · exact sound_endAttempt h ha rfl (h.runs ha).fits (endsWith_some a _)
    · exact h
  · exact h

theorem sound_meetCondition (h : s.Sound) (g : SegId) : (s.meetCondition g).Sound := by
  unfold State.meetCondition
  split
  · next a ha =>
    split
    · next hf => exact sound_endFollowing h (h.runs ha) hf
    · exact h
  · exact h

theorem sound_meetRestart (h : s.Sound) (g : SegId) : (s.meetRestart g).Sound :=
  sound_inRun h fun a hr => by
    split
    · next hp => exact sound_setAttempt (a := { a with restarted := true }) h hr rfl (restarted_fits hr.fits hp.1) rfl
    · exact h

theorem sound_meetClockLow (h : s.Sound) (g : SegId) (fell : Bool) : (s.meetClockLow g fell).Sound :=
  sound_inRun h fun a hr => sound_setAttempt h hr (seesLow_keeps a _ fell).2 (seesLow_fits hr.fields hr.fits fell)
    (seesLow_keeps a _ fell).1

/-- The acknowledge bit of a byte is over (R65 to R75). -/
theorem sound_acknowledge {data : Byte} {ninth low : Bool} (h : s.Sound) (hr : s.Runs g a) (hn : a.failure = none)
    (ht : a.timing.isSome = true) : (s.modSeg g fun v =>
      ({ v with engine := .run ((a.inByte (s.slot a.slot)).afterByte (s.slot a.slot) data ninth) } : Seg).seeLow false
        low).Sound := by
  obtain ⟨failure, timing, slot⟩ := inByte_keeps a (s.slot a.slot)
  have timed : a.timing ≠ none := fun e => by rw [e] at ht; cases ht
  have after := afterByte_slot (a.inByte (s.slot a.slot)) (s.slot a.slot) data ninth
  exact sound_modRun h hr (seeLow_keeps _ _ _).1 (seeLow_keeps _ _ _).2 (after.1.trans slot)
    (afterByte_fits hr.fields (inByte_fits hr.fields hr.fits timed) (timing ▸ timed) (failure.trans hn) data ninth)
    (after.2.trans timing)

/-- A segment changed without its list or its engine runs its attempt on. -/
theorem State.Runs.modSeg {f : Seg → Seg} (h : s.Sound) (hr : s.Runs g a)
    (hk : (f (s.seg g)).list = (s.seg g).list ∧ (f (s.seg g)).engine = (s.seg g).engine) : (s.modSeg g f).Runs g a :=
  (sound_modSeg_of_keeps h hk).runs (by rw [seg_modSeg, retime_engine, hk.2, hr.engine])

/-! ## SEG_RESET on a running attempt -/

theorem sound_abort (h : s.Sound) (hr : s.Runs g c) (slot : a.slot = c.slot) (timing : a.timing = c.timing)
    (fits : a.Fits (s.slot c.slot)) (stopped : (a.pass .stop).Fits (s.slot c.slot)) : (s.abort g a).Sound := by
  unfold State.abort
  split
  · have counted : ({ s with freeCount := s.freeCount + 1 } : State).Sound := h.of_pool rfl
    have runs := counted.runs (g := g) (a := c) (by rw [← hr.engine]; cases g <;> rfl)
    split
    · exact sound_modRun (a := a) counted runs rfl rfl slot fits timing
    · exact sound_modRun (a := a.pass .stop) counted runs rfl rfl slot stopped timing
  · exact sound_modRun (a := a) h hr rfl rfl slot fits timing

theorem sound_resetRun (h : s.Sound) (hr : s.Runs g a) : (s.resetRun g a).Sound := by
  unfold State.resetRun
  split
  · exact sound_endAttempt h hr.engine rfl hr.fits (endsWith_some a _)
  · next ht =>
    split
    · next hn =>
      exact sound_abort (a := { a with failure := some ⟨.aborted, a.phase.place⟩ }) h hr rfl rfl
        (aborted_fits hr.fits ht hn _) (failed_pass_fits hr.fits ht (not_following hr.fits hn) (.inl rfl))
    · exact sound_endAttempt h hr.engine rfl hr.fits (endsWith_some a _)

end Sys2Proof.Machine
end

section
/-! SUPPORT. Pool and transfers stay sound through every message and every command, and so through every step. -/
namespace Sys2Proof.Machine

section
variable {s : State} {g : SegId} {p : PortId} {e : StoreIx} {kind tag op : Byte} {args body : List Byte}

/-! ## Cancels and management (R50, R146, R147) -/

theorem sound_cancelNamed (h : s.Sound) (named : Byte) : (s.cancelNamed p e tag named).Sound := by
  unfold State.cancelNamed
  split
  · exact h.of_pool (pool_canreply _ _ _ _ _ _)
  · next i _ =>
    have replied o := h.of_pool (pool_canreply s p e tag o named)
    split
    · next hw =>
      refine sound_withdraw (replied .removed) ?_ (by decide)
      rwa [slot_of_pool (pool_canreply s p e tag .removed named)]
    · exact replied .tooLate

theorem sound_takeCancel (h : s.Sound) : (s.takeCancel p tag body).Sound :=
  sound_gate s p h fun e t _ ht => by
    split
    · exact sound_cancelNamed ht _
    · exact ht.of_pool (pool_refuse _ _ _ _ _ _)

theorem sound_mapRetire (h : s.Sound) : (s.mapRetire p e tag args).Sound := by
  unfold State.mapRetire
  split
  · split
    · next u purge _ _ =>
      refine State.Sound.of_pool (s := s.retireEntry p u purge) ?_ (pool_mreply _ _ _ _ _ _ _)
      unfold State.retireEntry
      dsimp only
      have written := h.of_pool (pool_setMapEntry u { s.mapEntry u with valid := false })
      have purged : (if purge = true then (s.setMapEntry u { s.mapEntry u with valid := false }).purge u
          else s.setMapEntry u { s.mapEntry u with valid := false }).Sound := by
        split
        · exact sound_purge written u
        · exact written
      split
      · exact purged.of_pool (pool_noticeTo _ _ _ _)
      · exact purged
    · exact h.of_pool (pool_badarg _ _ _ _ _)
  · exact h.of_pool (pool_badarg _ _ _ _ _)

theorem setup_keeps_enabled (v : Seg) (x : Setup) (hx : x.enable = true) :
    (v.applySetup x).list = v.list ∧ (v.applySetup x).engine = if v.engine = .off then .check false else v.engine := by
  unfold Seg.applySetup
  cases v.engine <;> simp [hx, Seg.enterCheck, Seg.startCheckTimers]

theorem setup_disables (v : Seg) (x : Setup) (hx : x.enable = false) :
    (v.applySetup x).list = v.list ∧ (v.applySetup x).engine = .off := by
  unfold Seg.applySetup; simp [hx]

/-- A segment whose disabling is not refused runs no attempt, and no request waits for it (R54, R109). -/
theorem disable_allowed (h : s.PoolFits) (hd : (s.seg g).disableRefused = false) :
    (s.seg g).engine.isRun = false ∧ (s.seg g).list = [] := by
  unfold Seg.disableRefused at hd
  split at hd
  · next he => exact ⟨by rw [he]; rfl, h.down g (by rw [he]; rfl)⟩
  · next he => exact ⟨by rw [he]; rfl, by simp_all⟩
  · next he => exact ⟨by rw [he]; rfl, by simp_all⟩
  · next he => exact ⟨by rw [he]; rfl, by simp_all⟩
  · cases hd
  · cases hd

theorem sound_applySetup (h : s.Sound) {x : Setup} (hx : ¬(x.enable = false ∧ (s.seg g).disableRefused = true)) :
    (s.modSeg g fun v => v.applySetup x).Sound := by
  cases hen : x.enable with
  | true =>
    obtain ⟨list, engine⟩ := setup_keeps_enabled (s.seg g) x hen
    split at engine
    · next he => exact sound_modSeg h (by rw [he]; rfl) list (by rw [engine]; rfl) (by rw [engine]; nofun)
    · exact sound_modSeg_of_keeps h ⟨list, engine⟩
  | false =>
    obtain ⟨list, engine⟩ := setup_disables (s.seg g) x hen
    obtain ⟨idle, empty⟩ := disable_allowed h.pool (Bool.eq_false_iff.mpr fun e => hx ⟨hen, e⟩)
    exact sound_modSeg h idle list (by rw [engine]; rfl) fun _ => empty

theorem sound_segSet (h : s.Sound) : (s.segSet p e tag args).Sound := by
  unfold State.segSet
  split
  · split
    · split
      · exact h.of_pool (pool_mreply _ _ _ _ _ _ _)
      · next hx => exact (sound_applySetup h hx).of_pool (pool_mreply _ _ _ _ _ _ _)
    · exact h.of_pool (pool_badarg _ _ _ _ _)
  · exact h.of_pool (pool_badarg _ _ _ _ _)

/-- Entry into RECOVER from an engine that runs no attempt (R104). -/
theorem enterRecover_keeps (v : Seg) : v.enterRecover.list = v.list ∧ v.enterRecover.engine = .recover false := seeLow_keeps _ _ _

theorem sound_startRecovery (h : s.Sound) (hr : (s.seg g).engine.isRun = false) : (s.startRecovery p e tag g).Sound := by
  unfold State.startRecovery
  have reserved := h.of_pool (pool_modPort (p := p)
    (f := fun v => v.setEntry e (some { StoreEntry.reserve .mreply with reservedFor := some g })) rfl)
  refine sound_modSeg reserved ?_ (enterRecover_keeps _).1 (by rw [(enterRecover_keeps _).2]; rfl)
    (by rw [(enterRecover_keeps _).2]; nofun)
  rw [State.modPort, seg_setPort]; exact hr

theorem idle_of_recoverable {v : Seg} (h : v.recoverRefusal = none) : v.engine.isRun = false := by
  unfold Seg.recoverRefusal at h
  cases he : v.engine <;> simp [he, Engine.isRun] at h ⊢

theorem sound_segRecover (h : s.Sound) : (s.segRecover p e tag args).Sound := by
  unfold State.segRecover
  split
  · split
    · split
      · exact h.of_pool (pool_mreply _ _ _ _ _ _ _)
      · next hr => exact sound_startRecovery h (idle_of_recoverable hr)
    · exact h.of_pool (pool_badarg _ _ _ _ _)
  · exact h.of_pool (pool_badarg _ _ _ _ _)

theorem sound_enterCheck (h : s.Sound) (hr : (s.seg g).engine.isRun = false) : (s.modSeg g Seg.enterCheck).Sound :=
  sound_modSeg h hr rfl rfl nofun

theorem sound_segReset (h : s.Sound) : (s.segReset p e tag args).Sound := by
  unfold State.segReset
  have replied (t : State) (ht : t.Sound) (st : MgmtStatus) : (t.mreply p e tag opSegReset st []).Sound :=
    ht.of_pool (pool_mreply _ _ _ _ _ _ _)
  split
  · split
    · next g _ =>
      split
      · next a ha =>
        exact sound_resetRun (replied s h .done) ((replied s h .done).runs ((run_of_pool (pool_mreply _ _ _ _ _ _ _)).mpr ha))
      · next he => exact replied _ (sound_enterCheck h (by rw [he]; rfl)) .done
      · next he => exact replied _ (sound_enterCheck h (by rw [he]; rfl)) .done
      · exact replied s h .noeffect
      · exact replied s h .noeffect
      · exact replied s h .noeffect
    · exact h.of_pool (pool_badarg _ _ _ _ _)
  · exact h.of_pool (pool_badarg _ _ _ _ _)

/-- An operation of MGMT leaves pool and transfers sound (R147). -/
theorem sound_mgmtOp (h : s.Sound) : (s.mgmtOp p e tag op args).Sound := by
  by_cases hop : op ∈ [opMapRetire, opSegSet, opSegRecover, opSegReset]
  · simp only [List.mem_cons, List.not_mem_nil, or_false] at hop
    rcases hop with rfl | rfl | rfl | rfl
    · exact sound_mapRetire h
    · exact sound_segSet h
    · exact sound_segRecover h
    · exact sound_segReset h
  · simp only [List.mem_cons, List.not_mem_nil, or_false, not_or] at hop
    obtain ⟨retire, set, recover, reset⟩ := hop
    refine h.of_pool ?_
    simp only [State.mgmtOp, if_neg retire, if_neg set, if_neg recover, if_neg reset, apply_ite State.pool, pool_mapWrite,
      pool_mapRead, pool_portSet, pool_portRead, pool_segHold, pool_segRelease, pool_statusRead, pool_restartOp,
      pool_refuse, ite_self]

theorem sound_takeMgmt (h : s.Sound) : (s.takeMgmt p tag body).Sound :=
  sound_gate s p h fun e t _ ht => by
    split
    · exact ht.of_pool (pool_refuse _ _ _ _ _ _)
    · split
      · exact ht.of_pool (pool_refuse _ _ _ _ _ _)
      · exact sound_mgmtOp ht

/-! ## Messages (R138, R139, R144) -/

theorem sound_gatedRefuse (h : s.Sound) (reason : Reason) : (s.gatedRefuse p reason kind tag).Sound :=
  sound_gate s p h fun _ _ _ ht => ht.of_pool (pool_refuse _ _ _ _ _ _)

/-- A good message handed on leaves pool and transfers sound, where the map is in range (R144). -/
theorem sound_takeMessage (h : s.Sound) (hm : s.MapFits) : (s.takeMessage p kind tag body).Sound := by
  unfold State.takeMessage
  dsimp only
  have counted := h.of_pool (pool_modPort (p := p)
    (f := fun v => { v with counters := { v.counters with accepted := bump v.counters.accepted } }) rfl)
  split; · exact sound_gatedRefuse counted _
  split; · exact sound_takeTxn counted hm
  split; · exact sound_takeCancel counted
  split; · exact sound_takeMgmt counted
  exact sound_gatedRefuse counted _

theorem sound_judgeFrame {crc : BitVec 16} (h : s.Sound) (hm : s.MapFits) : (s.judgeFrame p kind tag body crc).Sound := by
  unfold State.judgeFrame
  dsimp only
  have idle := h.of_pool (pool_modPort (p := p) (f := fun v => { v with assembly := Assembly.idle }) rfl)
  split
  · exact sound_takeMessage idle hm
  · exact idle.of_pool (pool_modPort rfl)

theorem sound_completeFrame {crc : BitVec 16} (h : s.Sound) (hm : s.MapFits) :
    (s.completeFrame p kind tag body crc).Sound := by
  unfold State.completeFrame
  split
  · exact sound_judgeFrame (h.of_pool (pool_modPort rfl)) hm
  · exact h

theorem sound_completeMessage (h : s.Sound) (hm : s.MapFits) : (s.completeMessage p kind tag body).Sound :=
  sound_completeFrame h hm

theorem sound_judgeBuffer (h : s.Sound) (hm : s.MapFits) (buffer : List Byte) : (s.judgeBuffer p buffer).Sound := by
  unfold State.judgeBuffer
  split
  · split
    · exact sound_judgeFrame h hm
    · exact h
  · exact h

theorem sound_assembleByte (h : s.Sound) (hm : s.MapFits) (b : Byte) : (s.assembleByte p b).Sound := by
  unfold State.assembleByte
  split
  · split <;> exact h.of_pool (pool_modPort rfl)
  · unfold State.receiveByte
    dsimp only
    split
    · exact h.of_pool (pool_modPort (ready_countAbandoned _))
    · split
      · exact sound_judgeBuffer h hm _
      · exact h.of_pool (pool_modPort rfl)
  · exact h

theorem sound_endCharacter (h : s.Sound) (hm : s.MapFits) (c : RxChar) : (s.endCharacter p c).Sound := by
  unfold State.endCharacter
  dsimp only
  split
  · exact sound_assembleByte (h.of_pool (pool_modPort rfl)) hm _
  · exact h.of_pool (pool_modPort (ready_characterError _ _))
  · split
    · exact h.of_pool (pool_modPort (ready_characterError _ _))
    · exact h.of_pool (pool_modPort rfl)

/-! ## The transmitter (R37, R161) -/

theorem sound_complete (h : s.Sound) {item : Item} {rest : List Item} (hq : (s.port p).queue = item :: rest) :
    (s.complete p item rest).Sound := by
  unfold State.complete
  dsimp only
  split
  · exact sound_started _ _ _
  · refine State.Sound.of_pool (sound_released h hq _ fun _ => rfl) ((pool_give _ _).trans (pool_switchAt _ _ _))

/-! ## Engines in CHECK and RECOVER (R100 to R107) -/

theorem notRun_of_check {n : Engine} {b : Bool} (h : n = .check b) : n.isRun = false := by rw [h]; rfl

theorem notRun_of_recover {n : Engine} {b : Bool} (h : n = .recover b) : n.isRun = false := by rw [h]; rfl

/-- An engine that runs no attempt turns to CHECK or RECOVER (R102, R104, R106). -/
theorem sound_turn {f : Seg → Seg} (h : s.Sound) (hr : (s.seg g).engine.isRun = false)
    (hl : (f (s.seg g)).list = (s.seg g).list)
    (he : ∃ b, (f (s.seg g)).engine = .check b ∨ (f (s.seg g)).engine = .recover b) : (s.modSeg g f).Sound := by
  obtain ⟨b, he | he⟩ := he
  · exact sound_modSeg h hr hl (by rw [he]; rfl) (by rw [he]; nofun)
  · exact sound_modSeg h hr hl (by rw [he]; rfl) (by rw [he]; nofun)

theorem sound_beginClosing (h : s.Sound) (hr : (s.seg g).engine.isRun = false) : (s.modSeg g Seg.beginClosing).Sound :=
  sound_turn h hr (seeLow_keeps _ _ _).1 ⟨true, .inl (seeLow_keeps _ _ _).2⟩

theorem sound_giveUpClosing (h : s.Sound) (hr : (s.seg g).engine.isRun = false) (scl sda : Bool) :
    (s.modSeg g fun v => v.giveUpClosing scl sda).Sound :=
  sound_turn h hr (seeLow_keeps _ _ _).1 ⟨false, .inl (seeLow_keeps _ _ _).2⟩

theorem sound_drivePulse (h : s.Sound) (hr : (s.seg g).engine.isRun = false) (stopping sda : Bool) :
    (s.modSeg g fun v => v.drivePulse stopping sda).Sound :=
  sound_turn h hr (seeLow_keeps _ _ _).1 ⟨stopping, .inr (seeLow_keeps _ _ _).2⟩

/-- A segment is seen low and its engine, which runs no attempt, enters FAULT (R102, R105 to R107). -/
theorem sound_faultSeen (h : s.Sound) (hr : (s.seg g).engine.isRun = false) (f : Seg → Seg)
    (hk : (f (s.seg g)).list = (s.seg g).list ∧ (f (s.seg g)).engine = (s.seg g).engine) :
    ((s.modSeg g f).enterFault g).Sound :=
  sound_enterFault (sound_modSeg_of_keeps h hk) (by rw [seg_modSeg, retime_engine, hk.2, hr])

theorem sound_pulseOrFault (h : s.Sound) (hr : (s.seg g).engine.isRun = false) (scl : Bool) :
    (s.pulseOrFault g scl).Sound := by
  unfold State.pulseOrFault
  split
  · exact sound_faultSeen h hr _ (seeLow_keeps _ _ _)
  · exact sound_drivePulse h hr _ _

end

/-! ## Commands -/

section
variable {s t : State} {g : SegId} {p : PortId}

theorem sound_of_running {f : State → State} (h : s.Sound) (hn : s.running f = .next t) (hf : s.resetn = true → (f s).Sound) :
    t.Sound := by
  unfold State.running at hn
  split at hn
  · next hr => cases hn; exact hf hr
  · cases hn; exact h

/-- While the part runs, a check timer of a segment runs only in CHECK with no closing stop (R101, R115). -/
theorem checking_of_timer (ht : s.TimersFit) (hr : s.resetn = true) (g : SegId)
    (hx : (s.seg g).quietTimer.isSome = true ∨ (s.seg g).dataHeldTimer.isSome = true ∨
      (s.seg g).clockHeldTimer.isSome = true) : (s.seg g).engine.isRun = false := by
  unfold State.TimersFit at ht
  rw [if_pos hr] at ht
  refine notRun_of_check (b := false) ?_
  rcases hx with hx | hx | hx
  · exact ((ht g).quiet.mp hx).1
  · exact ((ht g).dataHeld.mp hx).1
  · exact ((ht g).clockHeld.mp hx).1

/-! ### A message received, a character, a break (R121 to R144) -/

theorem deviceReset_keeps (hn : execDeviceReset s = .next t) : t.Sound := by
  cases hn; exact resetIsLegal.sound.of_pool (pool_inReset s)

theorem deviceResetEnd_keeps {a b : Levels} (h : s.Sound) (hn : execDeviceResetEnd a b s = .next t) : t.Sound := by
  unfold execDeviceResetEnd at hn
  split at hn <;> cases hn
  · exact h
  · exact sound_started s a b

/-- A command that is one complete message handed on keeps pool and transfers sound. -/
theorem sound_of_message {tag kind : Byte} {body : List Byte} (h : s.Sound) (hm : s.MapFits)
    (hn : s.running (fun s => s.completeMessage p kind tag body) = .next t) : t.Sound :=
  sound_of_running h hn fun _ => sound_completeMessage h hm

theorem characterReceived_keeps {c : RxChar} (h : s.Sound) (hm : s.MapFits)
    (hn : execCharacterReceived p c s = .next t) : t.Sound :=
  sound_of_running h hn fun _ => by
    split
    · exact sound_endCharacter h hm c
    · exact h

theorem crcError_keeps {kind tag : Byte} {body : List Byte} {crc : BitVec 16} (h : s.Sound) (hm : s.MapFits)
    (hn : execCrcError p kind tag body crc s = .next t) : t.Sound :=
  sound_of_running h hn fun _ => by
    split
    · exact h
    · exact sound_completeFrame h hm

theorem badverBadkind_keeps {kind tag : Byte} {body : List Byte} (h : s.Sound) (hm : s.MapFits)
    (hn : execBadverBadkindMessage p kind tag body s = .next t) : t.Sound :=
  sound_of_running h hn fun _ => by
    split
    · exact h
    · exact sound_completeMessage h hm

theorem mgmtBadop_keeps {tag : Byte} {body : List Byte} (h : s.Sound) (hm : s.MapFits)
    (hn : execMgmtBadop p tag body s = .next t) : t.Sound :=
  sound_of_running h hn fun _ => by
    split
    · exact h
    · exact sound_completeMessage h hm

theorem breakWatchEndsAtMark_keeps (h : s.Sound) (hn : execBreakWatchEndsAtMark p s = .next t) : t.Sound :=
  sound_of_running h hn fun _ => by
    split
    · exact h.of_pool (pool_modPort (ready_characterError _ _))
    · exact h.of_pool (pool_modPort rfl)
    · exact h
    · exact h
    · exact h

theorem gapTimerExpiry_keeps (h : s.Sound) (hn : execGapTimerExpiry p s = .next t) : t.Sound :=
  sound_of_running h hn fun _ => by
    split
    · exact h.of_pool (pool_modPort (ready_countAbandoned _))
    · exact h

theorem break_keeps (h : s.Sound) (hn : execBreak p s = .next t) : t.Sound :=
  sound_of_running h hn fun _ => by
    split
    · rw [portRestart_eq h.pool]
      exact (sound_broken h p).of_pool (pool_endBreakIfMark _ _)
    · exact h

theorem breakEnd_keeps (h : s.Sound) (hn : execBreakEnd p s = .next t) : t.Sound :=
  sound_of_running h hn fun _ => by
    split
    · exact h.of_pool (pool_endBreak _ _)
    · exact h

theorem startBit_keeps {stands : Bool} (h : s.Sound) (hn : execStartBit p stands s = .next t) : t.Sound :=
  sound_of_running h hn fun _ => by
    split
    · exact h.of_pool (pool_modPort (by split <;> rfl))
    · exact h

theorem messageTransmitted_keeps (h : s.Sound) (hn : execMessageTransmitted p s = .next t) : t.Sound :=
  sound_of_running h hn fun _ => by
    split
    · next hq => exact sound_complete h hq
    · exact h

theorem transmitterHeld_keeps (h : s.Sound) (hn : execTransmitterHeld p s = .next t) : t.Sound :=
  sound_of_running h hn fun _ => by
    split
    · exact h.of_pool ((pool_give _ _).trans (pool_modPort rfl))
    · exact h

/-! ### A choice and the timers of requests (R35, R45 to R49) -/

theorem choice_keeps (h : s.Sound) (hn : execChoice g s = .next t) : t.Sound :=
  sound_of_running h hn fun _ => by
    split
    · next he =>
      split
      · next i hi => exact sound_choose h (by rw [he.1]; rfl) (best_spec h.pool hi).1
      · exact h
    · exact h

theorem retryTimerExpiry_keeps {i : SlotId} (h : s.Sound) (hn : execRetryTimerExpiry i s = .next t) : t.Sound :=
  sound_of_running h hn fun _ => by
    split
    · next hd => exact sound_retry h hd.1
    · exact h

theorem lifetimeExpiry_keeps {i : SlotId} (h : s.Sound) (hn : execLifetimeExpiry i s = .next t) : t.Sound :=
  sound_of_running h hn fun _ => by
    split
    · next hl => exact sound_expireLifetime h hl
    · exact h

/-! ### The running attempt (R61 to R80) -/

theorem openingStart_keeps (h : s.Sound) (hn : execOpeningStart g s = .next t) : t.Sound :=
  sound_of_running h hn fun _ => sound_inRun h fun a hr => by
    split
    · next hp => exact sound_openAttempt h hr hp.1
    · exact h

theorem attemptEndsOk_keeps (h : s.Sound) (hn : execAttemptEndsOk g s = .next t) : t.Sound :=
  sound_of_running h hn fun _ => sound_stopped h

theorem attemptEndsAddressNack_keeps (h : s.Sound) (hn : execAttemptEndsAddressNack g s = .next t) : t.Sound :=
  sound_of_running h hn fun _ => sound_stopped h

theorem attemptEndsDataNack_keeps (h : s.Sound) (hn : execAttemptEndsDataNack g s = .next t) : t.Sound :=
  sound_of_running h hn fun _ => sound_stopped h

theorem attemptEndsAborted_keeps (h : s.Sound) (hn : execAttemptEndsAborted g s = .next t) : t.Sound :=
  sound_of_running h hn fun _ => sound_stopped h

theorem attemptEndsArbitrationLost_keeps (h : s.Sound) (hn : execAttemptEndsArbitrationLost g s = .next t) : t.Sound :=
  sound_of_running h hn fun _ => sound_inRun h fun a hr => by
    split
    · next hf => exact sound_endFollowing h hr hf
    · exact h

theorem stretchTimeout_keeps (h : s.Sound) (hn : execStretchTimeout g s = .next t) : t.Sound :=
  sound_of_running h hn fun _ => sound_inRun h fun a hr => by
    split
    · exact h
    · have hk := seeLow_keeps (s.seg g) false (s.seg g).sda
      have slot : (s.modSeg g fun v => v.seeLow false v.sda).slot a.slot = s.slot a.slot := slot_setSeg _ _ _ _
      refine sound_stretchOut (c := a) (sound_modSeg_of_keeps h hk) (hr.modSeg h hk) (clockFalls_keeps a _).2 ?_
      rw [slot]; exact clockFalls_fits hr.fields hr.fits

theorem acknowledgeBitRead_keeps {data : Byte} {ninth : Bool} (h : s.Sound)
    (hn : execAcknowledgeBitRead g data ninth s = .next t) : t.Sound :=
  sound_of_running h hn fun _ => sound_inRun h fun a hr => by
    split
    · next ha => exact sound_acknowledge h hr ha.1 ha.2.1
    · exact h

theorem arbitrationLost_keeps {how : LossCause} (h : s.Sound) (hn : execArbitrationLost g how s = .next t) : t.Sound :=
  sound_of_running h hn fun _ => sound_inRun h fun a hr => by
    dsimp only
    split
    · next hl =>
      have hk := seeLoss_keeps (s.seg g) how
      have slot : (s.modSeg g fun v => v.seeLoss how).slot a.slot = s.slot a.slot := slot_setSeg _ _ _ _
      refine sound_loseArbitration (c := a) (sound_modSeg_of_keeps h hk) (hr.modSeg h hk) (clockFalls_keeps a _).2 ?_
        (clockFalls_keeps a _).1 (started_of_canLose hl.2)
      rw [slot]; exact clockFalls_fits hr.fields hr.fits
    · exact h

/-! ### What is seen on the wire (R84 to R89, R97) -/

theorem monitorStartSeen_keeps (h : s.Sound) (hn : execMonitorStartSeen g s = .next t) : t.Sound :=
  sound_of_running h hn fun _ => by
    have seen : (s.modSeg g fun v => v.monitorStart.see true false).Sound :=
      sound_modSeg_of_keeps h (start_keeps (s.seg g))
    exact sound_meetRestart (sound_meetCondition (sound_meetStart seen g) g) g

theorem monitorStopSeen_keeps (h : s.Sound) (hn : execMonitorStopSeen g s = .next t) : t.Sound :=
  sound_of_running h hn fun _ => by
    split
    · exact h
    · have seen : (s.modSeg g fun v => (v.see true true).monitorStop).Sound :=
        sound_modSeg_of_keeps h (monitorStop_keeps ((s.seg g).see true true))
      exact sound_meetCondition seen g

theorem lineLow_keeps {l : Levels} (h : s.Sound) (hn : execLineLow g l s = .next t) : t.Sound :=
  sound_of_running h hn fun _ => by
    have low : (s.modSeg g fun v => v.seeLow l.clock l.data).Sound :=
      sound_modSeg_of_keeps h (seeLow_keeps (s.seg g) l.clock l.data)
    have seen := sound_meetStart low g
    split
    · exact h
    · dsimp only
      split
      · exact seen
      · exact sound_meetClockLow seen g _

theorem bothLinesHigh_keeps (h : s.Sound) (hn : execBothLinesHigh g s = .next t) : t.Sound :=
  sound_of_running h hn fun _ => by
    exact sound_modSeg_of_keeps h (monitorHigh_keeps ((s.seg g).see true true))

theorem busFreeTimerExpiry_keeps (h : s.Sound) (hn : execBusFreeTimerExpiry g s = .next t) : t.Sound :=
  sound_of_running h hn fun _ => by
    split
    · exact sound_modSeg_of_keeps h ⟨rfl, rfl⟩
    · exact h

theorem busyLongTimerExpiry_keeps (h : s.Sound) (hn : execBusyLongTimerExpiry g s = .next t) : t.Sound :=
  sound_of_running h hn fun _ => by
    have stopped : (s.setSeg g { s.seg g with busyLongTimer := none }).Sound := h.of_pool (pool_setSeg rfl rfl)
    split
    · dsimp only
      split
      · exact stopped
      · exact stopped.of_pool ((pool_noticeTo _ _ _ _).trans (pool_setSeg rfl rfl))
    · exact h

/-! ### An engine that checks or recovers its bus (R100 to R107) -/

theorem quietTimerExpiry_keeps (h : s.Sound) (ht : s.TimersFit) (hn : execQuietTimerExpiry g s = .next t) : t.Sound :=
  sound_of_running h hn fun hr => by
    split
    · next hq =>
      have idle := checking_of_timer ht hr g (.inl hq)
      split
      · exact sound_beginClosing h idle
      · exact sound_enterIdle h idle
    · exact h

theorem dataHeldTimerExpiry_keeps (h : s.Sound) (ht : s.TimersFit) (hn : execDataHeldTimerExpiry g s = .next t) :
    t.Sound :=
  sound_of_running h hn fun hr => by
    split
    · next hd =>
      exact sound_turn h (checking_of_timer ht hr g (.inr (.inl hd))) (enterRecover_keeps _).1
        ⟨false, .inr (enterRecover_keeps _).2⟩
    · exact h

theorem clockHeldTimerExpiry_keeps (h : s.Sound) (ht : s.TimersFit) (hn : execClockHeldTimerExpiry g s = .next t) :
    t.Sound :=
  sound_of_running h hn fun hr => by
    split
    · next hk => exact sound_enterFault h (checking_of_timer ht hr g (.inr (.inr hk)))
    · exact h

theorem closingStopComplete_keeps (h : s.Sound) (hn : execClosingStopComplete g s = .next t) : t.Sound :=
  sound_of_running h hn fun _ => by
    split
    · next he =>
      refine sound_enterIdle (sound_modSeg_of_keeps h (ownStop_keeps _)) ?_
      rw [seg_modSeg, retime_engine, (ownStop_keeps _).2, he]; rfl
    · exact h

theorem closingStopFails_keeps {how : StopFailure} (h : s.Sound) (hn : execClosingStopFails g how s = .next t) :
    t.Sound :=
  sound_of_running h hn fun _ => by
    split
    · next he =>
      have idle := notRun_of_check he
      cases how with
      | dataNotHigh => exact sound_giveUpClosing h idle _ _
      | clockFell => exact sound_turn h idle (seeLow_keeps _ _ _).1 ⟨false, .inl (seeLow_keeps _ _ _).2⟩
      | clockHeld => exact sound_faultSeen h idle _ (seeLow_keeps _ _ _)
    · exact h

theorem releasePulse_keeps {data : Bool} (h : s.Sound) (hn : execReleasePulse g data s = .next t) : t.Sound :=
  sound_of_running h hn fun _ => by
    split
    · next he =>
      have idle := notRun_of_recover he
      have counted : (s.setSeg g { s.seg g with pulseCount := (s.seg g).pulseCount + 1 }).Sound :=
        h.of_pool (pool_setSeg rfl rfl)
      have still : ((s.setSeg g { s.seg g with pulseCount := (s.seg g).pulseCount + 1 }).seg g).engine.isRun = false := by
        rw [seg_setSeg]; exact idle
      dsimp only
      split
      · exact sound_drivePulse counted still _ _
      · exact sound_pulseOrFault counted still _
    · exact h

theorem recoveryClockHeld_keeps (h : s.Sound) (hn : execRecoveryClockHeld g s = .next t) : t.Sound :=
  sound_of_running h hn fun _ => by
    split
    · next he =>
      refine sound_faultSeen h ?_ _ (seeLow_keeps _ _ _)
      cases hen : (s.seg g).engine <;> rw [hen] at he <;> cases he
      rfl
    · exact h

theorem recoveryStopComplete_keeps {how : StopEnd} (h : s.Sound) (hn : execRecoveryStopComplete g how s = .next t) :
    t.Sound :=
  sound_of_running h hn fun _ => by
    split
    · next he =>
      have idle := notRun_of_recover he
      cases how with
      | complete => exact sound_turn h idle (ownStop_keeps (s.seg g)).1 ⟨false, .inl rfl⟩
      | dataNotHigh => exact sound_pulseOrFault h idle _
      | clockFell => exact sound_pulseOrFault h idle _
    · exact h

/-- Every command keeps pool and transfers sound, where the map is in range and the timers follow their lines. -/
theorem exec_keeps_sound {c : Instr} (h : s.Sound) (hm : s.MapFits) (ht : s.TimersFit) (hn : exec c s = .next t) :
    t.Sound := by
  cases c with
  | deviceReset => exact deviceReset_keeps hn
  | deviceResetEnd a b => exact deviceResetEnd_keeps h hn
  | characterReceived p ch => exact characterReceived_keeps h hm hn
  | crcError p kind tag body crc => exact crcError_keeps h hm hn
  | badverBadkindMessage p kind tag body => exact badverBadkind_keeps h hm hn
  | mgmtBadop p tag body => exact mgmtBadop_keeps h hm hn
  | breakWatchEndsAtMark p => exact breakWatchEndsAtMark_keeps h hn
  | gapTimerExpiry p => exact gapTimerExpiry_keeps h hn
  | breakRecognized p => exact break_keeps h hn
  | breakEnd p => exact breakEnd_keeps h hn
  | startBit p stands => exact startBit_keeps h hn
  | messageTransmitted p => exact messageTransmitted_keeps h hn
  | transmitterHeld p => exact transmitterHeld_keeps h hn
  | txn p tag body => exact sound_of_message h hm hn
  | cancel p tag body => exact sound_of_message h hm hn
  | mapWrite p tag args => exact sound_of_message h hm hn
  | mapRead p tag args => exact sound_of_message h hm hn
  | mapRetire p tag args => exact sound_of_message h hm hn
  | portSet p tag args => exact sound_of_message h hm hn
  | portRead p tag args => exact sound_of_message h hm hn
  | segSet p tag args => exact sound_of_message h hm hn
  | segHold p tag args => exact sound_of_message h hm hn
  | segRelease p tag args => exact sound_of_message h hm hn
  | segRecover p tag args => exact sound_of_message h hm hn
  | segReset p tag args => exact sound_of_message h hm hn
  | statusRead p tag args => exact sound_of_message h hm hn
  | restart p tag args => exact sound_of_message h hm hn
  | choice g => exact choice_keeps h hn
  | retryTimerExpiry i => exact retryTimerExpiry_keeps h hn
  | lifetimeExpiry i => exact lifetimeExpiry_keeps h hn
  | openingStart g => exact openingStart_keeps h hn
  | attemptEndsOk g => exact attemptEndsOk_keeps h hn
  | attemptEndsAddressNack g => exact attemptEndsAddressNack_keeps h hn
  | attemptEndsDataNack g => exact attemptEndsDataNack_keeps h hn
  | attemptEndsArbitrationLost g => exact attemptEndsArbitrationLost_keeps h hn
  | stretchTimeout g => exact stretchTimeout_keeps h hn
  | attemptEndsAborted g => exact attemptEndsAborted_keeps h hn
  | acknowledgeBitRead g data ninth => exact acknowledgeBitRead_keeps h hn
  | arbitrationLost g how => exact arbitrationLost_keeps h hn
  | monitorStartSeen g => exact monitorStartSeen_keeps h hn
  | monitorStopSeen g => exact monitorStopSeen_keeps h hn
  | lineLow g l => exact lineLow_keeps h hn
  | bothLinesHigh g => exact bothLinesHigh_keeps h hn
  | busFreeTimerExpiry g => exact busFreeTimerExpiry_keeps h hn
  | busyLongTimerExpiry g => exact busyLongTimerExpiry_keeps h hn
  | quietTimerExpiry g => exact quietTimerExpiry_keeps h ht hn
  | dataHeldTimerExpiry g => exact dataHeldTimerExpiry_keeps h ht hn
  | clockHeldTimerExpiry g => exact clockHeldTimerExpiry_keeps h ht hn
  | closingStopComplete g => exact closingStopComplete_keeps h hn
  | closingStopFails g how => exact closingStopFails_keeps h hn
  | releasePulse g data => exact releasePulse_keeps h hn
  | recoveryClockHeld g => exact recoveryClockHeld_keeps h hn
  | recoveryStopComplete g how => exact recoveryStopComplete_keeps h hn

/-- Every step from a legal state ends with pool and transfers sound. -/
theorem step_keeps_sound (hl : s.Legal) (hn : step s = .next t) : t.Sound := by
  unfold step at hn
  split at hn
  · cases hn; exact hl.sound
  · next c rest _ =>
    exact exec_keeps_sound (s := { s with pending := rest }) (hl.sound.of_pool rfl) hl.map hl.timers hn

end

/-! ## The two invariants -/

/-- Settles O55: each operation on the pool moves one request between its list, its engine and its queue, and the rest
of a step leaves the pool's view of the state. -/
theorem poolStaysFitted : Obligations.PoolStaysFitted :=
  fun _ _ hl hn => (step_keeps_sound hl hn).pool

/-- Settles O57: an operation on an attempt keeps it within its phase table, and a result is composed from an attempt
that has run through it. -/
theorem transfersStayFitted : Obligations.TransfersStayFitted :=
  fun _ _ hl hn => (step_keeps_sound hl hn).transfers

end Sys2Proof.Machine
end

section
/-! SUPPORT. The bounds that the invariants of a legal state give (R21, R23, R30, R33, R78, R158). -/
namespace Sys2Proof.Machine

section
variable {s : State}

/-- An item stands in a queue at most once (R158). -/
theorem nodup_queue (h : s.Legal) (p : PortId) : (s.port p).queue.Nodup := by
  refine List.nodup_iff_count_le_one.mpr fun item => ?_
  cases item with
  | result i => rw [h.pool.queued]; split <;> decide
  | entry e => rw [(h.stores.stores p).counted]; split <;> decide

/-- Every item of a queue is the RESULT of a slot of its port or an entry of its store. -/
theorem queue_subset (h : s.Legal) (p : PortId) : (s.port p).queue ⊆
    (allSlots.filter fun i => (s.slot i).occupied && decide ((s.slot i).owner = p)).map .result ++
      (List.finRange 6).map .entry := by
  intro item hi
  cases item with
  | result i =>
    have counted := h.pool.queued p i
    have listed : 0 < (s.port p).queue.count (.result i) := List.count_pos_iff.mpr hi
    split at counted
    · next ha => simp [mem_allSlots, Slot.occupied, ha.1, ha.2]
    · omega
  | entry e => simp

theorem length_queue_le (h : s.Legal) (p : PortId) : (s.port p).queue.length ≤ s.occupied p + 6 := by
  have bound := (List.subperm_of_subset (nodup_queue h p) (queue_subset h p)).length_le
  rwa [List.length_append, List.length_map, List.length_map, List.length_finRange] at bound

/-- The ACTIVE request of a segment is the one its engine runs, so there is one (R30). -/
theorem active_unique (h : s.PoolFits) {i j : SlotId} (hi : (s.slot i).state = .active) (hj : (s.slot j).state = .active)
    (hg : (s.slot i).snapshot.segment = (s.slot j).snapshot.segment) : i = j := by
  obtain ⟨a, runsI, rfl⟩ := h.active i hi
  obtain ⟨b, runsJ, rfl⟩ := h.active j hj
  rw [hg, runsJ] at runsI
  cases runsI; rfl

/-- A request has at most 15 attempts: one for each of at most 7 retries and at most 8 losses, and where fewer than 8 were
lost, one that is running or was the last (R33, R78). -/
theorem Slot.CountsFit.attempts_le {r : Slot} {opened : Bool} (h : r.CountsFit opened) : r.attempts ≤ 15 := by
  have limit : r.retriesUsed ≤ 7 := h.retries.trans h.limit
  have losses : r.losses ≤ 8 := h.losses
  have attempts := h.attempts
  split at attempts
  · next last =>
    have fewer : r.losses < 8 := last.elim And.right fun active => h.losing (by simp [active.1])
    omega
  · omega

theorem attempts_losses_le (h : s.Legal) (i : SlotId) : (s.slot i).attempts ≤ 15 ∧ (s.slot i).losses ≤ 8 := by
  by_cases ho : (s.slot i).occupied = true
  · exact ⟨(h.transfers.counts i ho).attempts_le, (h.transfers.counts i ho).losses⟩
  · have cleared : s.slot i = Slot.cleared := (h.pool.slots i).free (by simpa [Slot.occupied] using ho)
    rw [cleared]; decide

end

/-- Settles O58: the bounds follow from the counts and identities that the invariants hold. -/
theorem legalStatesKeepTheBounds : Obligations.LegalStatesKeepTheBounds := by
  intro s h
  refine ⟨fun p => ⟨?_, nodup_queue h p, h.pool.window p⟩, fun i j => active_unique h.pool,
    fun g => ⟨nodup_list h.pool g, (nodup_list h.pool g).length_le_card⟩, fun i => ?_⟩
  · have window : s.occupied p ≤ 8 := h.pool.window p
    have := length_queue_le h p
    omega
  · obtain ⟨attempts, losses⟩ := attempts_losses_le h i
    refine ⟨attempts, losses, fun res hr hok => ?_⟩
    obtain ⟨_, written, read⟩ := (h.transfers.results i res hr).ok hok
    exact ⟨written, read⟩

end Sys2Proof.Machine
end

section
/-! SUPPORT. The timers of requests (R35, R36, R48, R49). -/
namespace Sys2Proof.Machine

section
variable {s : State} {i : SlotId}

/-- An answer as the statements write it (R22, R158). -/
theorem answer_eq_answered {res : Result} (h : (s.port (s.slot i).owner).Served) :
    s.answer i res = s.answered i (s.slot i) res := answer_eq h

/-- A waiting request whose lifetime ends leaves its list and is answered EXPIRED (R36, R48). -/
theorem expireLifetime_of_waiting (hw : (s.slot i).waiting = true) (h : (s.port (s.slot i).owner).Served) :
    s.expireLifetime i = (s.setSeg (s.slot i).snapshot.segment
      { s.seg (s.slot i).snapshot.segment with
        list := (s.seg (s.slot i).snapshot.segment).list.filter fun j => decide (j ≠ i) }).answered i
          { s.slot i with deadlinePassed := true } ⟨.expired, .none, 0, []⟩ := by
  have still : ({ s.slot i with deadlinePassed := true, lifetimeTimer := none } : Slot).waiting = true := hw
  unfold State.expireLifetime State.modSlot
  dsimp only
  rw [if_pos (by rwa [slot_setSlot]), withdraw_eq (by simpa using h)]
  simp [State.answered, Slot.answered, Result.ofScheduler, setSeg_setPort, setSeg_setSlot]

/-- An ACTIVE request whose lifetime ends is only marked (R48). -/
theorem expireLifetime_of_active (ha : (s.slot i).state = .active) :
    s.expireLifetime i = s.setSlot i { s.slot i with deadlinePassed := true, lifetimeTimer := none } := by
  unfold State.expireLifetime State.modSlot
  dsimp only
  rw [if_neg (by simp [Slot.waiting, ha])]

end

/-- Settles O37: each expiry is one write of the request's record, and that of a waiting lifetime its withdrawal. -/
theorem timersActOnTheirRequests : Obligations.TimersActOnTheirRequests := by
  intro i s hr
  refine ⟨fun deferred runs => ?_, fun runs => ⟨fun active => ?_, fun waits served => ?_⟩⟩
  · change execRetryTimerExpiry i s = _
    rw [execRetryTimerExpiry, running_of hr, if_pos ⟨deferred, runs⟩]
    rfl
  · change execLifetimeExpiry i s = _
    rw [execLifetimeExpiry, running_of hr, if_pos runs, expireLifetime_of_active active]
  · change execLifetimeExpiry i s = _
    rw [execLifetimeExpiry, running_of hr, if_pos runs, expireLifetime_of_waiting (by simpa [Slot.waiting] using waits) served]

end Sys2Proof.Machine
end

section
/-! SUPPORT. What a choice leaves of the state (R46, R47). -/
namespace Sys2Proof.Machine

variable {s : State} {g : SegId} {i j : SlotId}

/-- The record of each request after a choice (R46, R47). -/
theorem slot_choose (h : s.PoolFits) (g : SegId) (i j : SlotId) : (s.choose g i).slot j =
    if j = i then { s.slot i with state := .active }
    else if j ∈ s.passed g i then (s.slot j).passOver else s.slot j := by
  have passed := slot_passOverAll _ (nodup_passed h g i) s
  unfold State.choose State.modSeg State.modSlot at *
  simp only [slot_setSeg, slot_setSlot_eq, passed, if_neg (not_mem_passed s g i)]

/-- The segment after a choice (R47). -/
theorem seg_choose (s : State) (g : SegId) (i : SlotId) : (s.choose g i).seg g = (s.seg g).retime
    { s.seg g with list := (s.seg g).list.filter fun j => decide (j ≠ i), engine := .run (Attempt.begin i) } := by
  unfold State.choose
  rw [passOverAll_eq, seg_modSeg]
  rfl

theorem withSlots_self (slots : Vector Slot 24) :
    s.withSlots (State.slot { s with slots := slots }) = { s with slots := slots } := by
  have records : Vector.ofFn (State.slot { s with slots := slots }) = slots :=
    Vector.ext fun k hk => by simp [State.slot]
  rw [State.withSlots, records]

/-- A choice reaches the records and its segment only. -/
theorem choose_frame (s : State) (g : SegId) (i : SlotId) :
    s.choose g i = (s.withSlots (s.choose g i).slot).setSeg g ((s.choose g i).seg g) := by
  obtain ⟨slots, v, e⟩ : ∃ slots v, s.choose g i = ({ s with slots := slots } : State).setSeg g v := by
    unfold State.choose
    rw [passOverAll_eq]
    generalize (List.foldl _ s _).slots = slots
    exact ⟨_, _, modSeg_eq ..⟩
  have records : (s.choose g i).slot = State.slot { s with slots := slots } := by
    rw [e]; exact funext fun j => slot_setSeg ..
  rw [records, withSlots_self, e, seg_setSeg]

theorem execChoice_of_best (hr : s.resetn = true) (he : (s.seg g).engine = .idle) (hm : (s.seg g).monitor = .free)
    (hb : s.best g = some i) : exec (.choice g) s = .next (s.choose g i) := by
  change execChoice g s = _
  rw [execChoice, running_of hr, if_pos ⟨he, hm⟩, hb]

/-- Where no choice can be made, CHOICE changes nothing (R44). -/
theorem execChoice_of_none (hr : s.resetn = true)
    (h : (s.seg g).engine ≠ .idle ∨ (s.seg g).monitor ≠ .free ∨ s.best g = none) : exec (.choice g) s = .next s := by
  change execChoice g s = _
  rw [execChoice, running_of hr]
  rcases h with h | h | h
  · rw [if_neg fun e => h e.1]
  · rw [if_neg fun e => h e.2]
  · rw [h, ite_self]

/-- Settles O36: the arbiter's walk takes the best of the eligible requests, and those it passed over stand ahead of it. -/
theorem choiceTakesTheBestEligible : Obligations.ChoiceTakesTheBestEligible := by
  intro g s hr h
  refine ⟨fun none => ?_, fun idle free ⟨k, hk⟩ => ?_⟩
  · rw [← best_eq_none h] at none
    exact execChoice_of_none hr none
  · obtain ⟨i, hb⟩ : ∃ i, s.best g = some i := by
      refine Option.ne_none_iff_exists'.mp fun none => ?_
      exact (best_eq_none h).mp none k hk
    obtain ⟨eligible, best⟩ := best_spec h hb
    have slot := slot_choose h g i
    refine ⟨i, s.choose g i, execChoice_of_best hr idle free hb, eligible, best, by rw [slot, if_pos rfl],
      fun j hj => ⟨fun passed => ?_, fun kept => ?_⟩, choose_frame s g i, ?_⟩
    · rw [slot, if_neg hj, if_pos ((mem_passed h eligible).mpr passed)]
      rfl
    · rw [slot, if_neg hj, if_neg fun m => kept ((mem_passed h eligible).mp m)]
    · rw [seg_choose]
      exact retime_becomes _ _ rfl rfl rfl rfl

end Sys2Proof.Machine
end

section
/-! SUPPORT. What the pool makes of each way an attempt ends (R31 to R34, R38, R74, R90, R92). -/
namespace Sys2Proof.Machine

/-! ## A place in a list -/

/-- A slot placed by its age stands behind every older one and ahead of every younger one (R41). -/
theorem placeByAge_splits {age : SlotId → Nat} {i : SlotId} {l : List SlotId} (h : l.Pairwise fun j k => age j < age k)
    (hne : ∀ j ∈ l, age j ≠ age i) : ∃ older younger, l = older ++ younger ∧ placeByAge age i l = older ++ i :: younger ∧
      (∀ j ∈ older, age j < age i) ∧ ∀ j ∈ younger, age i < age j := by
  induction l with
  | nil => exact ⟨[], [], rfl, rfl, nofun, nofun⟩
  | cons k l ih =>
    obtain ⟨hk, hl⟩ := List.pairwise_cons.mp h
    unfold placeByAge
    split
    · next younger =>
      refine ⟨[], k :: l, rfl, rfl, nofun, fun j hj => ?_⟩
      rcases List.mem_cons.mp hj with rfl | hj
      · exact younger
      · exact younger.trans (hk j hj)
    · next notYounger =>
      obtain ⟨older, younger, rfl, place, hold, hyoung⟩ := ih hl fun j hj => hne j (List.mem_cons_of_mem _ hj)
      refine ⟨k :: older, younger, rfl, by rw [place]; rfl, fun j hj => ?_, hyoung⟩
      rcases List.mem_cons.mp hj with rfl | hj
      · exact lt_of_le_of_ne (not_lt.mp notYounger) (hne j List.mem_cons_self)
      · exact hold j hj

section
variable {s : State} {i : SlotId} {r : Slot} {a : Attempt} {res : Result} {st : RequestState} {timer : Option Nat}

/-- A request whose attempt has ended rejoins its list at its place (R32, R33, R41). -/
theorem returned_rejoin (h : s.PoolFits) (ha : (s.slot i).state = .active) (hr : r.request = (s.slot i).request) :
    s.Returned ((s.setSlot i r).rejoin i) i r := by
  have segment : r.snapshot.segment = (s.slot i).snapshot.segment := congrArg Snapshot.segment (snapshot_of_request hr)
  have ages : (fun j => ((s.setSlot i r).slot j).admission) = fun j => (s.slot j).admission := by
    funext j
    rw [slot_setSlot_eq]
    split
    · next e => rw [e]; exact admission_of_request hr
    · rfl
  obtain ⟨older, younger, list, place, hold, hyoung⟩ := placeByAge_splits (i := i) (h.aged r.snapshot.segment) fun j hj e => by
    obtain ⟨hw, _⟩ := (h.listed _ j).mp hj
    have same := h.distinct j i (occupied_of_waiting hw) (occupied_of_active ha) e
    rw [same, not_waiting_of_active ha] at hw
    cases hw
  rw [← admission_of_request hr] at hold hyoung
  refine ⟨older, younger, list, hold, hyoung, ?_⟩
  unfold State.rejoin
  rw [ages]
  simp only [slot_setSlot, seg_setSlot, place]

/-- An answer to a changed record as the statements write it. -/
theorem setSlot_answer (hr : r.owner = (s.slot i).owner) (hs : (s.port (s.slot i).owner).Served) :
    (s.setSlot i r).answer i res = s.answered i r res := by
  rw [answer_eq_answered (by simpa [hr] using hs), slot_setSlot]
  unfold State.answered
  rw [setSlot_setSlot, port_setSlot]

/-- A request that goes back to its list and whose deadline has passed is answered EXPIRED (R34). -/
theorem goBack_of_late (hr : r.owner = (s.slot i).owner) (hs : (s.port (s.slot i).owner).Served)
    (hd : r.deadlinePassed = true) : (s.setSlot i r).goBack i st timer = s.answered i r ⟨.expired, .none, 0, []⟩ := by
  rcases goBack_cases s i r st timer with ⟨_, e⟩ | ⟨intime, _⟩
  · rw [e]; exact setSlot_answer hr hs
  · rw [hd] at intime; cases intime

theorem returned_goBack (h : s.PoolFits) (ha : (s.slot i).state = .active) (hr : r.request = (s.slot i).request)
    (hd : r.deadlinePassed = false) :
    s.Returned ((s.setSlot i r).goBack i st timer) i { r with state := st, retryTimer := timer } := by
  rcases goBack_cases s i r st timer with ⟨late, _⟩ | ⟨_, e⟩
  · rw [hd] at late; cases late
  · rw [e]; exact returned_rejoin h ha hr

/-! ## The outcomes -/

/-- An address not acknowledged ends a request, or leaves it a retry (R32, R74). -/
theorem settle_addressNack {place : Where} (hx : (s.slot a.slot).orphan = false) :
    s.settle a (some ⟨.addressNack, place⟩) =
      if (s.slot a.slot).operation = .probe ∨ (s.slot a.slot).snapshot.retryLimit ≤ (s.slot a.slot).retriesUsed then
        s.answer a.slot ⟨.nackaddr, place, a.written, []⟩
      else (s.setSlot a.slot { s.slot a.slot with retriesUsed := (s.slot a.slot).retriesUsed + 1 }).goBack a.slot .deferred
        (some (s.slot a.slot).snapshot.retryInterval) := by
  unfold State.settle
  rw [if_neg (by simp [hx])]
  rfl

/-- A loss ends a request that has been lost 8 times, and returns any other (R33, R92). -/
theorem settle_loss {place : Where} (hx : (s.slot a.slot).orphan = false) :
    s.settle a (some ⟨.arbitrationLost, place⟩) =
      if 8 ≤ (s.slot a.slot).losses + 1 then
        (s.setSlot a.slot { s.slot a.slot with losses := (s.slot a.slot).losses + 1 }).answer a.slot
          ⟨.arblost, place, a.written, []⟩
      else (s.setSlot a.slot { s.slot a.slot with losses := (s.slot a.slot).losses + 1 }).goBack a.slot .pending none := by
  unfold State.settle
  rw [if_neg (by simp [hx])]
  unfold State.afterFailure State.afterLoss State.modSlot
  dsimp only
  rw [slot_setSlot]
  rfl

end

/-- Settles O38: one lemma for each fate of a request whose attempt has ended, and the place of one that goes back to its
list from the order of admissions. -/
theorem poolSettlesAnEndedAttempt : Obligations.PoolSettlesAnEndedAttempt := by
  refine ⟨rfl, rfl, fun _ _ => rfl, fun a s h active served => ⟨fun orphan f => ?_, fun own => ⟨?_, fun place => ?_⟩⟩⟩
  · exact if_pos orphan
  · have ok : s.settle a none = s.answer a.slot ⟨.ok, .none, a.written, a.readData⟩ := by
      rw [State.settle, if_neg (by simp [own])]
    exact ok.trans (answer_eq_answered served)
  · have answers {k : FailKind} {st : Status} (e : s.afterFailure a.slot ⟨k, place⟩ a.written =
        s.answer a.slot ⟨st, place, a.written, []⟩) :
        s.settle a (some ⟨k, place⟩) = s.answered a.slot (s.slot a.slot) ⟨st, place, a.written, []⟩ := by
      rw [State.settle, if_neg (by simp [own])]
      exact e.trans (answer_eq_answered served)
    have nack := settle_addressNack (place := place) own
    have loss := settle_loss (place := place) own
    refine ⟨answers rfl, answers rfl, answers rfl, fun last => ?_, fun retries left => ⟨fun late => ?_, fun intime => ?_⟩,
      fun last => ?_, fun left late => ?_, fun left intime => ?_⟩
    · exact (nack.trans (if_pos last)).trans (answer_eq_answered served)
    · have goes := nack.trans (if_neg (by simp [retries, left]))
      exact goes.trans (goBack_of_late rfl served late)
    · have goes := nack.trans (if_neg (by simp [retries, left]))
      exact goes ▸ returned_goBack h active rfl intime
    · exact (loss.trans (if_pos last)).trans (setSlot_answer rfl served)
    · exact (loss.trans (if_neg (not_le.mpr left))).trans (goBack_of_late rfl served late)
    · rw [loss, if_neg (not_le.mpr left)]
      have timer : (s.slot a.slot).retryTimer = none := by
        simpa [active] using (h.slots a.slot).retry
      have returned := returned_goBack (r := { s.slot a.slot with losses := (s.slot a.slot).losses + 1 }) (st := .pending)
        (timer := none) h active rfl intime
      rw [← timer] at returned ⊢
      exact returned

end Sys2Proof.Machine
end

section
/-! SUPPORT. What a recognized break leaves of the part (R39, R123 to R127, R168). -/
namespace Sys2Proof.Machine

variable {s : State} {p : PortId}

theorem outlasted_iff {r : Receiver} : r.outlasted = true ↔ r = .breakWatch ∨ r = .waitMark := by
  cases r <;> simp [Receiver.outlasted]

/-- A recognized break restarts its port, and where its pending format makes the line so held mark, the break ends in the
same act (R124, R126, R127). -/
theorem execBreak_eq (hr : s.resetn = true) (ht : (s.port p).spaceTimer.isSome = true)
    (hv : (s.port p).receiver = .breakWatch ∨ (s.port p).receiver = .waitMark) (h : s.PoolFits) :
    exec (.breakRecognized p) s = .next ((s.broken p).endBreakIfMark p) := by
  change execBreak p s = _
  rw [execBreak, running_of hr, if_pos ⟨ht, outlasted_iff.mpr hv⟩, portRestart_eq h]

/-- A port that a break has restarted stands in break hold. -/
theorem receiver_broken : ((s.broken p).port p).receiver = .breakHold := by
  rw [port_broken, if_pos rfl]; rfl

/-- The line held at space stands at mark exactly when the restart has changed the polarity (R126; log entry 18). -/
theorem isMark_broken (v : Port) : v.broken.format.isMark v.broken.hrx = true ↔
    v.broken.format.inverted ≠ v.format.inverted := by
  change (v.format.inverted == !v.broken.format.inverted) = true ↔ _
  cases v.format.inverted <;> cases v.broken.format.inverted <;> simp

theorem endBreakIfMark_broken : (s.broken p).endBreakIfMark p =
    if (s.port p).broken.format.inverted ≠ (s.port p).format.inverted then (s.broken p).endBreak p else s.broken p := by
  have mark : ((s.broken p).port p).format.isMark ((s.broken p).port p).hrx = true ↔
      (s.port p).broken.format.inverted ≠ (s.port p).format.inverted := by
    rw [port_broken, if_pos rfl]; exact isMark_broken _
  simp only [State.endBreakIfMark, receiver_broken, mark, true_and]

/-- Settles O12: the port restart is `State.broken`, whose line is at mark only where a switch changed the polarity. -/
theorem breakRestartsItsPort : Obligations.BreakRestartsItsPort := by
  intro p s hr
  refine ⟨fun still => ?_, fun ht hv h => ⟨fun same => ?_, fun w hw differs => ?_⟩⟩
  · change execBreak p s = _
    rw [execBreak, running_of hr, if_neg]
    rintro ⟨runs, outlasted⟩
    rcases still with stopped | ⟨notWatch, notWait⟩
    · rw [stopped] at runs; cases runs
    · exact (outlasted_iff.mp outlasted).elim notWatch notWait
  · have polarity : (s.port p).broken.format.inverted = (s.port p).format.inverted := by
      cases hw : (s.port p).pendingSwitch with
      | none => simp [Port.broken, hw]
      | some w => simpa [Port.broken, hw] using same w hw
    rw [execBreak_eq hr ht hv h, endBreakIfMark_broken, if_neg (not_not.mpr polarity)]
  · have polarity : (s.port p).broken.format.inverted ≠ (s.port p).format.inverted := by
      simpa [Port.broken, hw] using differs
    change _ = execBreakEnd p (s.broken p)
    rw [execBreak_eq hr ht hv h, endBreakIfMark_broken, if_pos polarity, execBreakEnd,
      running_of (by rw [resetn_broken, hr]), if_pos receiver_broken]

end Sys2Proof.Machine
end

section
/-! SUPPORT. A TXN that is refused (R25, R27, R151). -/
namespace Sys2Proof.Machine

/-- A refusal that finds a free entry is the sending of its REFUSE (R27, R163). -/
theorem gatedRefuse_eq {s : State} {p : PortId} {e : StoreIx} {reason : Reason} {kind tag : Byte}
    (hs : (s.port p).Served) (he : (s.port p).freeEntry = some e) :
    s.gatedRefuse p reason kind tag = s.sends p e (refuseEntry reason kind tag) := by
  have served : ((s.setPort p ((s.port p).setEntry e (some (StoreEntry.reserve .refuse)))).port p).Served := by
    rw [port_setPort]; exact hs
  rw [State.gatedRefuse, gate_of_free he, State.refuse, compose_eq_sends served, sends_over_reserved]
  rfl

/-- Settles O18: the first check that fails gives the reason, and the refusal takes the free entry. -/
theorem refusedTxnHasOnlyItsRefusal : Obligations.RefusedTxnHasOnlyItsRefusal := by
  refine ⟨rfl, fun _ _ _ => rfl, fun p tag body reason e s arrives fails free => ?_⟩
  have taken : (s.heard p).takeTxn p tag body = (s.heard p).gatedRefuse p reason kindTxn tag := by
    rw [State.takeTxn, State.heard, checkTxn_setPort, fails]
  have heard : (s.heard p).port p = (s.port p).heard := port_setPort _ _ _
  change execTxn p tag body s = _
  rw [execTxn, running_of arrives.running, completeTxn_eq arrives, taken,
    gatedRefuse_eq (by rw [heard]; exact heard_served arrives.served) (by rw [heard, heard_freeEntry, free])]
  rfl

end Sys2Proof.Machine
end

section
/-! SUPPORT. The completion of a message (R37, R129, R130, R161, R190). -/
namespace Sys2Proof.Machine

section
variable {s : State} {p : PortId} {item : Item} {rest : List Item}

/-- The frame of an item at its port, where the RESULT frames of the slots are known (R148). -/
def Port.frameAt (v : Port) (frame : SlotId → List Byte) : Item → List Byte
  | .result i => frame i
  | .entry e => (v.store[e].map StoreEntry.frame).getD []

theorem takesUp_cons {v : Port} (frame : SlotId → List Byte) (hq : v.queue = item :: rest) :
    v.takesUp frame = { v.markSending item with tx := .sending, txFrame := v.frameAt frame item } := by
  unfold Port.takesUp
  split
  · next e => rw [hq] at e; cases e
  · next i _ e => rw [hq] at e; cases e; rfl
  · next f _ e =>
    rw [hq] at e; cases e
    split
    · next x hx => simp [Port.markSending, Port.setEntry, Port.frameAt, hx]
    · next hx =>
      have same : v.store.set f.val none f.isLt = v.store := by rw [← hx]; exact Vector.set_getElem_self _
      simp [Port.markSending, Port.setEntry, Port.frameAt, hx, same]

/-- An IDLE transmitter takes up the head of its queue (R160). -/
theorem give_eq_takesUp (ht : (s.port p).tx = .idle) :
    s.give p = s.setPort p ((s.port p).takesUp fun i => (s.slot i).resultFrame) := by
  cases hq : (s.port p).queue with
  | nil => rw [give_of_empty hq, Port.takesUp, hq]; exact (setPort_port ..).symm
  | cons item rest =>
    rw [give_idle ht hq, takesUp_cons _ hq]
    cases item <;> rfl

/-- A switch outside break hold as the statements write it (R130). -/
theorem applySwitch_eq (v : Port) (f : LineFormat) : v.applySwitch f = v.switched f := by
  unfold Port.applySwitch Port.switched Port.countAbandoned
  split <;> rfl

/-- The port whose head item's message has been sent, before any switch (R161 steps 1 and 2). -/
def Port.sent (v : Port) (item : Item) (rest : List Item) : Port :=
  { v with
    queue := rest, tx := .idle, txFrame := []
    store := match item with
      | .result _ => v.store
      | .entry e => v.store.set e.val none e.isLt }

/-- What the item held is released in the pool: the slot of a RESULT (R37). -/
def State.resultFreed (s : State) : Item → State
  | .result i => s.setSlot i Slot.cleared
  | .entry _ => s

theorem releaseItem_eq : (s.modPort p fun v => { v with queue := rest, tx := .idle, txFrame := [] }).releaseItem p item =
    (s.resultFreed item).setPort p ((s.port p).sent item rest) := by
  cases item with
  | result i => rfl
  | entry e => simp [State.releaseItem, State.modPort, State.resultFreed, Port.sent, Port.setEntry]

/-- Whether a pending switch has its switch point at the completion of an item (R129). -/
theorem reached_iff {w : PendingSwitch} :
    w.reached item = true ↔ w.point = .messageSent ∨ ∃ e, w.point = .replySent e ∧ item = .entry e := by
  unfold PendingSwitch.reached
  cases w.point <;> simp

theorem isRestartReply_eq_false {v : Port} (h : ∀ e x, item = .entry e → v.store[e] = some x → x.restartReply = false) :
    v.isRestartReply item = false := by
  cases item with
  | result i => rfl
  | entry e =>
    cases hx : v.store[e] with
    | none => simp [Port.isRestartReply, hx]
    | some x => simpa [Port.isRestartReply, hx] using h e x rfl hx

theorem switchAt_of_pending {w : PendingSwitch} (hw : (s.port p).pendingSwitch = some w) (hr : w.reached item = true) :
    s.switchAt p item = s.setPort p ((s.port p).switched w.format) := by
  unfold State.switchAt
  rw [hw]
  dsimp only
  rw [if_pos hr, State.modPort, applySwitch_eq]

theorem switchAt_of_not_reached (h : ∀ w, (s.port p).pendingSwitch = some w → w.reached item = false) :
    s.switchAt p item = s := by
  unfold State.switchAt
  split
  · next w hw => rw [h w hw]; rfl
  · rfl

/-- A command that completes a message (R161). -/
theorem execMessageTransmitted_eq (hr : s.resetn = true) (ht : (s.port p).tx = .sending)
    (hq : (s.port p).queue = item :: rest) : exec (.messageTransmitted p) s = .next (s.complete p item rest) := by
  change execMessageTransmitted p s = _
  rw [execMessageTransmitted, running_of hr, ht, hq]

/-- What a message leaves that begins no general restart: the released port, switched or not, takes up its next item. -/
theorem complete_eq {v : Port} (hx : (s.port p).isRestartReply item = false) (hv : v.tx = .idle)
    (ht : ((s.resultFreed item).setPort p ((s.port p).sent item rest)).switchAt p item = (s.resultFreed item).setPort p v) :
    s.complete p item rest =
      (s.resultFreed item).setPort p (v.takesUp fun i => ((s.resultFreed item).slot i).resultFrame) := by
  unfold State.complete
  dsimp only
  rw [hx, releaseItem_eq, ht, if_neg Bool.false_ne_true, give_eq_takesUp (by rwa [port_setPort])]
  simp only [port_setPort, setPort_setPort]
  rfl

/-- A general restart depends on the commands that wait, the levels of the lines, and the count of free values only
(R190). -/
theorem generalRestart_setPort {v : Port} (hv : v.hrx = (s.port p).hrx) :
    (s.setPort p v).generalRestart = s.generalRestart := by
  have lines q : ((s.setPort p v).port q).hrx = (s.port q).hrx := by
    rw [port_setPort_eq]
    split
    · next e => rw [e, hv]
    · rfl
  unfold State.generalRestart State.started State.inReset
  simp only [lines]
  rfl

/-- A switch leaves the level last seen on the line (R130). -/
theorem switchAt_line (s : State) (p : PortId) (item : Item) :
    ∃ v, s.switchAt p item = s.setPort p v ∧ v.hrx = (s.port p).hrx := by
  by_cases h : ∃ w, (s.port p).pendingSwitch = some w ∧ w.reached item = true
  · obtain ⟨w, hw, hr⟩ := h
    exact ⟨_, switchAt_of_pending hw hr, rfl⟩
  · refine ⟨s.port p, ?_, rfl⟩
    rw [setPort_port]
    exact switchAt_of_not_reached fun w hw => Bool.eq_false_iff.mpr fun hr => h ⟨w, hw, hr⟩

/-- The completion of the marked reply begins a general restart (R189, R190). -/
theorem complete_eq_restart {e : StoreIx} {x : StoreEntry} (hx : (s.port p).store[e] = some x)
    (marked : x.restartReply = true) : s.complete p (.entry e) rest = s.generalRestart := by
  have reply : (s.port p).isRestartReply (.entry e) = true := by simp [Port.isRestartReply, hx, marked]
  obtain ⟨v, hv, line⟩ := switchAt_line (s.setPort p ((s.port p).sent (.entry e) rest)) p (.entry e)
  rw [port_setPort] at line
  unfold State.complete
  dsimp only
  rw [if_pos reply, releaseItem_eq, State.resultFreed, hv, setPort_setPort]
  exact generalRestart_setPort line

/-- A command that ends the character which a break let finish (R119, R124). -/
theorem execTransmitterHeld_eq (hr : s.resetn = true) (ht : (s.port p).tx = .finishing) :
    exec (.transmitterHeld p) s = .next ((s.setPort p (s.port p).finishCharacter).give p) := by
  change execTransmitterHeld p s = _
  rw [execTransmitterHeld, running_of hr, if_pos ht]
  rfl

end

/-- Settles O51: the item is released, a switch whose point it is is applied, and the transmitter takes up its next item,
unless a general restart begins. -/
theorem completionReleasesTheHeadItem : Obligations.CompletionReleasesTheHeadItem := by
  intro p s hr
  refine ⟨fun item rest ht hq => ⟨fun plain => ⟨fun still => ?_, fun w hw due => ?_⟩, fun e x hi hx marked => ?_⟩,
    fun ht => ⟨fun hold => ?_, fun free => ?_⟩⟩
  · have still' w (hw : (s.port p).pendingSwitch = some w) : w.reached item = false :=
      Bool.eq_false_iff.mpr fun due => still w hw (reached_iff.mp due)
    rw [execMessageTransmitted_eq hr ht hq, complete_eq (v := (s.port p).sent item rest) (isRestartReply_eq_false plain) rfl
      (switchAt_of_not_reached (by rw [port_setPort]; exact still'))]
    cases item <;> rfl
  · rw [execMessageTransmitted_eq hr ht hq, complete_eq (v := ((s.port p).sent item rest).switched w.format)
      (isRestartReply_eq_false plain) rfl
      (by rw [switchAt_of_pending (w := w) (by rw [port_setPort]; exact hw) (reached_iff.mpr due), port_setPort, setPort_setPort])]
    cases item <;> rfl
  · subst hi
    change _ = execDeviceResetEnd _ _ _
    rw [execMessageTransmitted_eq hr ht hq, complete_eq_restart hx marked, execDeviceResetEnd, if_neg Bool.false_ne_true]
    rfl
  · have held : (s.port p).finishCharacter =
        { s.port p with txFormat := (s.port p).format, txFrame := [], tx := .held } := by
      rw [Port.finishCharacter, if_pos hold]
    rw [execTransmitterHeld_eq hr ht, held, give_of_not_idle (by rw [port_setPort]; nofun)]
  · have idle : (s.port p).finishCharacter =
        { s.port p with txFormat := (s.port p).format, txFrame := [], tx := .idle } := by
      rw [Port.finishCharacter, if_neg free]
    rw [execTransmitterHeld_eq hr ht, idle, give_eq_takesUp (by rw [port_setPort]), port_setPort, setPort_setPort]
    rfl

end Sys2Proof.Machine
end

section
/-! SUPPORT. The checks of admission as the manual states them (R8 to R10, R20, R22, R24 to R26, R149). -/
namespace Sys2Proof.Machine

variable {op : Operation} {width : Nat} {flags : Byte} {rest rest' : List Byte}

/-! ## The fields of a TXN body (R26, R149) -/

/-- The bytes of a lifetime (R149). -/
def sentLifetime : Option Nat → List Byte
  | some n => bytes16 n
  | none => []

/-- The byte of a read length (R149). -/
def sentReadLength : Option Nat → List Byte
  | some n => [byte n]
  | none => []

theorem layout_eq (f : TxnFields) (width : Nat) : f.layout width =
    sentLifetime f.lifetime ++ (subAddressBytes width f.subAddress ++ (sentReadLength f.readLength ++ f.writeData)) := by
  rw [← List.append_assoc, ← List.append_assoc]
  unfold TxnFields.layout sentLifetime subAddressBytes sentReadLength
  cases f.subAddress <;> rfl

theorem bytes16_word16 (hi lo : Byte) : bytes16 (word16 hi lo) = [hi, lo] := by
  rw [bytes16, byte_word16_high, byte_word16_low]

theorem flags_small : flags.toNat / 2 = 0 ↔ flags = 0 ∨ flags = 1 := by
  rw [← BitVec.toNat_inj, ← BitVec.toNat_inj]
  change _ ↔ flags.toNat = 0 ∨ flags.toNat = 1
  omega

/-- The lifetime that the flags and the body carry (R26). -/
theorem takeLifetime_iff {n : Option Nat} : takeLifetime flags rest = some (n, rest') ↔
    (∀ k, n = some k → 1 ≤ k ∧ k ≤ 65535) ∧ flags = (if n.isSome then 1 else 0) ∧ rest = sentLifetime n ++ rest' := by
  have one : (1 : Byte).getLsbD 0 = true := by decide
  have small : ¬(1 : Byte).toNat / 2 ≠ 0 := by decide
  constructor
  · intro h
    unfold takeLifetime at h
    split at h
    · cases h
    · next small =>
      rcases flags_small.mp (not_not.mp small) with rfl | rfl
      · cases h
        exact ⟨nofun, rfl, rfl⟩
      · rw [if_pos one] at h
        split at h
        · next hi lo tail =>
          split at h
          · cases h
          · next positive =>
            cases h
            refine ⟨fun k hk => ?_, rfl, by rw [sentLifetime, bytes16_word16]; rfl⟩
            cases hk
            have := word16_lt hi lo
            omega
        · cases h
  · rintro ⟨range, rfl, rfl⟩
    cases n with
    | none => rfl
    | some k =>
      obtain ⟨low, high⟩ := range k rfl
      change takeLifetime 1 (byte (k / 256) :: byte k :: rest') = _
      rw [takeLifetime, if_neg small, if_pos one, word16_bytes high, if_neg (by omega)]

/-- The sub-address that the entry's width and the operation call for (R8, R26). -/
theorem takeSubAddress_iff (hw : width ≤ 2) {sub : Option Nat} : takeSubAddress op width rest = some (sub, rest') ↔
    (sub.isSome = true ↔ width ≠ 0 ∧ op ≠ .probe) ∧ (∀ a, sub = some a → a < 256 ^ width) ∧
      rest = subAddressBytes width sub ++ rest' := by
  constructor
  · intro h
    refine ⟨takeSubAddress_isSome h, ?_⟩
    unfold takeSubAddress at h
    split at h
    · cases h; exact ⟨nofun, rfl⟩
    · split at h
      · cases h; exact ⟨nofun, rfl⟩
      · split at h
        · next b tail =>
          cases h
          refine ⟨fun a ha => ?_, by simp [subAddressBytes]⟩
          cases ha
          exact b.isLt
        · cases h
      · next notZero notOne =>
        have wide : width = 2 := by
          have : width ≠ 0 := notZero
          have : width ≠ 1 := notOne
          omega
        split at h
        · next hi lo tail =>
          cases h
          refine ⟨fun a ha => ?_, ?_⟩
          · cases ha; rw [wide]; exact word16_lt hi lo
          · rw [subAddressBytes, if_neg notOne, bytes16_word16]; rfl
        · cases h
  · rintro ⟨present, range, rfl⟩
    unfold takeSubAddress
    cases sub with
    | none =>
      split
      · rfl
      · next notProbe =>
        have : width = 0 := by
          by_contra hz
          exact Bool.false_ne_true (present.mpr ⟨hz, notProbe⟩)
        subst this
        rfl
    | some a =>
      obtain ⟨notZero, notProbe⟩ := present.mp rfl
      have small := range a rfl
      rw [if_neg notProbe]
      obtain rfl | rfl : width = 1 ∨ width = 2 := by omega
      · have : (byte a).toNat = a := toNat_byte_of_le (by omega)
        simp [subAddressBytes, this]
      · have : word16 (byte (a / 256)) (byte a) = a := word16_bytes (by omega)
        simp [subAddressBytes, bytes16, this]

/-- The read length that the operation calls for (R26). -/
theorem takeReadLength_iff {len : Option Nat} : takeReadLength op rest = some (len, rest') ↔
    (len.isSome = true ↔ op = .read ∨ op = .xfer) ∧ (∀ n, len = some n → 1 ≤ n ∧ n ≤ 255) ∧
      rest = sentReadLength len ++ rest' := by
  unfold takeReadLength
  constructor
  · intro h
    split at h
    · next reads =>
      split at h
      · next b tail =>
        split at h
        · cases h
        · next positive =>
          cases h
          refine ⟨iff_of_true rfl reads, fun n hn => ?_, by simp [sentReadLength]⟩
          cases hn
          have : b.toNat ≠ 0 := fun e => positive (BitVec.eq_of_toNat_eq e)
          omega
      · cases h
    · next others => cases h; exact ⟨iff_of_false nofun others, nofun, rfl⟩
  · rintro ⟨present, range, rfl⟩
    cases len with
    | none => rw [if_neg fun reads => Bool.false_ne_true (present.mpr reads)]; rfl
    | some n =>
      obtain ⟨low, high⟩ := range n rfl
      have value : (byte n).toNat = n := toNat_byte_of_le high
      have positive : ¬byte n = 0#8 := fun e => by
        rw [e] at value
        simp at value
        omega
      rw [if_pos (present.mp rfl)]
      simp [sentReadLength, positive, value]

theorem writeDataFits_iff {data : List Byte} : writeDataFits op data = true ↔
    (op = .read ∨ op = .probe → data = []) ∧ (op = .write → data ≠ []) := by
  cases op <;> simp [writeDataFits]

theorem txnFields_takes {f : TxnFields} : txnFields op width flags rest = some f ↔
    ∃ afterLifetime afterSub, takeLifetime flags rest = some (f.lifetime, afterLifetime) ∧
      takeSubAddress op width afterLifetime = some (f.subAddress, afterSub) ∧
      takeReadLength op afterSub = some (f.readLength, f.writeData) ∧ writeDataFits op f.writeData = true := by
  constructor
  · intro h
    unfold txnFields at h
    split at h
    · cases h
    · next lifetime =>
      split at h
      · cases h
      · next sub =>
        split at h
        · cases h
        · next len =>
          split at h
          · next data => cases h; exact ⟨_, _, lifetime, sub, len, data⟩
          · cases h
  · rintro ⟨_, _, lifetime, sub, len, data⟩
    simp [txnFields, lifetime, sub, len, data]

/-- Check 4 of admission passes with the fields that agree with the operation and lie in the body (R26). -/
theorem txnFields_iff (hw : width ≤ 2) {f : TxnFields} : txnFields op width flags rest = some f ↔
    f.Agrees op width ∧ rest = f.layout width ∧ flags = if f.lifetime.isSome then 1 else 0 := by
  simp only [txnFields_takes, takeLifetime_iff, takeSubAddress_iff hw, takeReadLength_iff, writeDataFits_iff, layout_eq,
    TxnFields.Agrees]
  constructor
  · rintro ⟨_, _, ⟨lifetime, flag, rfl⟩, ⟨sub, subRange, rfl⟩, ⟨len, lenRange, rfl⟩, reads, writes⟩
    exact ⟨⟨lifetime, sub, subRange, len, lenRange, reads, writes⟩, rfl, flag⟩
  · rintro ⟨⟨lifetime, sub, subRange, len, lenRange, reads, writes⟩, rfl, flag⟩
    exact ⟨_, _, ⟨lifetime, flag, rfl⟩, ⟨sub, subRange, rfl⟩, ⟨len, lenRange, rfl⟩, reads, writes⟩

/-! ## The other checks -/

section
variable {f : TxnFields} {e : MapEntry} {p : PortId} {s : State} {tag : Byte} {i : SlotId}

theorem permitted_iff : permitted e p op f.writeData = true ↔ f.Permitted e p op := by
  cases op <;> simp [permitted, TxnFields.Permitted, or_iff_not_imp_left]

/-- The extent of a request whose fields agree with its operation: an absent length counts 1 (R8). -/
theorem extent_eq (h : f.Agrees op width) : extent op f = max (max 1 f.writeData.length) (f.readLength.getD 1) := by
  obtain ⟨_, _, _, present, range, empty, data⟩ := h
  cases op with
  | read => rw [empty (.inl rfl)]; rfl
  | probe => rw [empty (.inr rfl)]; rfl
  | write =>
    have : 0 < f.writeData.length := List.length_pos_iff.mpr (data rfl)
    rw [extent, writeExtent, max_eq_right (a := 1) (by omega)]
  | xfer =>
    obtain ⟨n, hn⟩ := Option.isSome_iff_exists.mp (present.mpr (.inr rfl))
    have := (range n hn).1
    simp only [extent, writeExtent, hn, Option.getD_some]
    omega

theorem inWindow_iff (h : f.Agrees op width) : inWindow e op f = true ↔ f.InWindow e := by
  unfold inWindow TxnFields.InWindow
  rw [extent_eq h]
  cases f.subAddress <;> simp

theorem lengthsFit_iff : lengthsFit e f = true ↔ f.Short e := by
  unfold lengthsFit TxnFields.Short
  cases f.readLength <;> simp

theorem liveTag_isSome : (s.liveTag p tag).isSome = true ↔
    ∃ j, (s.slot j).live = true ∧ (s.slot j).owner = p ∧ (s.slot j).tag = tag := by
  simp [State.liveTag, mem_allSlots, and_assoc]

theorem down_iff {n : Engine} : n.down = true ↔ n = .off ∨ n = .fault := by
  cases n <;> simp [Engine.down]

theorem freeSlot_eq_none : s.freeSlot = none ↔ ∀ i, (s.slot i).state ≠ .free := by
  simp [State.freeSlot, mem_allSlots]

theorem allSlots_get : ∀ i : SlotId, ∃ h : i.val < allSlots.length, allSlots[i.val] = i := by decide

/-- The lowest FREE slot is taken (R22). -/
theorem freeSlot_eq_some (hi : (s.slot i).state = .free) (low : ∀ j < i, (s.slot j).state ≠ .free) :
    s.freeSlot = some i := by
  obtain ⟨bound, at_i⟩ := allSlots_get i
  refine List.find?_eq_some_iff_getElem.mpr ⟨by simpa using hi, i.val, bound, at_i, fun j hj => ?_⟩
  obtain ⟨_, at_j⟩ := allSlots_get ⟨j, hj.trans i.isLt⟩
  simpa [at_j] using low ⟨j, hj.trans i.isLt⟩ hj

/-! ## The lookup and the operation -/

theorem lookup_of_large {t : Byte} (h : 47 < t.toNat) : s.lookup t = none := by
  have none : targetOf t = none := dif_neg (by omega)
  rw [State.lookup, none]

theorem lookup_of_val {t : Byte} {u : TargetId} (h : u.val = t.toNat) :
    s.lookup t = if (s.mapEntry u).valid = true then some (u, s.mapEntry u) else none := by
  rw [State.lookup, targetOf_of_val h]

theorem operationOf_code (op : Operation) : operationOf op.code = some op := by cases op <;> rfl

theorem operationOf_eq_none {o : Byte} (h : o.toNat = 0 ∨ 4 < o.toNat) : operationOf o = none := by
  have unlike (b : Byte) (hb : 1 ≤ b.toNat ∧ b.toNat ≤ 4) : o ≠ b := by
    rintro rfl
    omega
  unfold operationOf
  rw [if_neg (unlike 1 (by decide)), if_neg (unlike 2 (by decide)), if_neg (unlike 3 (by decide)),
    if_neg (unlike 4 (by decide))]

/-! ## The order of the checks (R25) -/

theorem checkFails {b : Bool} {P : Prop} (h : b = true ↔ P) (hn : ¬P) : (!b) = true := by
  rw [Bool.eq_false_iff.mpr (mt h.mp hn)]; rfl

theorem checkPasses {b : Bool} {P : Prop} (h : b = true ↔ P) (hp : P) : ¬(!b) = true := by
  rw [h.mpr hp]; exact Bool.false_ne_true

/-- A TXN on a valid entry, its operation known, comes to check 4 (R25). -/
theorem checkTxn_of_entry {t : Byte} {u : TargetId} (hu : u.val = t.toNat) (hv : (s.mapEntry u).valid = true) :
    s.checkTxn p tag (t :: op.code :: flags :: rest) =
      (txnFields op (s.mapEntry u).subWidth flags rest).elim (.error .badfmt)
        fun f => s.admitFields p tag u (s.mapEntry u) op f := by
  rw [State.checkTxn, lookup_of_val hu, if_pos hv]
  dsimp only
  rw [operationOf_code]
  dsimp only
  cases txnFields op (s.mapEntry u).subWidth flags rest <;> rfl

end

/-- Settles O16: each check is met in turn, the field check by the layout of the body. -/
theorem admissionChecksStandInOrder : Obligations.AdmissionChecksStandInOrder := by
  intro p tag s
  refine ⟨fun body short => ?_, fun t o flags rest => ⟨fun large => ?_, fun u hu => ⟨fun invalid => ?_,
    fun valid narrow => ⟨fun unknown => ?_, fun op hop => ?_⟩⟩⟩⟩
  · unfold State.checkTxn
    split
    · simp only [List.length_cons] at short; omega
    · rfl
  · rw [State.checkTxn, lookup_of_large large]
  · rw [State.checkTxn, lookup_of_val hu, if_neg (by rw [invalid]; exact Bool.false_ne_true)]
  · rw [State.checkTxn, lookup_of_val hu, if_pos valid]
    dsimp only
    rw [operationOf_eq_none unknown]
  · subst hop
    refine ⟨fun disagrees => ?_, fun f agrees body flag => ?_⟩
    · rw [checkTxn_of_entry hu valid]
      cases hf : txnFields op (s.mapEntry u).subWidth flags rest with
      | none => rfl
      | some f => exact absurd ⟨f, (txnFields_iff narrow).mp hf⟩ disagrees
    · have fields : txnFields op (s.mapEntry u).subWidth flags rest = some f :=
        (txnFields_iff narrow).mpr ⟨agrees, body, flag⟩
      have checks : s.checkTxn p tag (t :: op.code :: flags :: rest) = s.admitFields p tag u (s.mapEntry u) op f := by
        rw [checkTxn_of_entry hu valid, fields]; rfl
      simp only [checks, State.admitFields]
      refine ⟨fun denied => if_pos (checkFails permitted_iff denied), fun permit => ?_, fun permit => ?_, fun permit => ?_⟩
      all_goals rw [if_neg (checkPasses permitted_iff permit)]
      · exact fun out => if_pos (checkFails (inWindow_iff agrees) out)
      · intro inside long
        rw [if_neg (checkPasses (inWindow_iff agrees) inside), if_pos (checkFails lengthsFit_iff long)]
      · intro inside short
        rw [if_neg (checkPasses (inWindow_iff agrees) inside), if_neg (checkPasses lengthsFit_iff short)]
        refine ⟨fun dup => if_pos (liveTag_isSome.mpr dup), fun fresh => ?_⟩
        rw [if_neg (mt liveTag_isSome.mp fresh)]
        refine ⟨fun down => if_pos (down_iff.mpr down), fun notOff notFault => ?_⟩
        rw [if_neg (mt down_iff.mp (not_or.mpr ⟨notOff, notFault⟩))]
        refine ⟨fun full => if_pos full, fun room => ?_⟩
        rw [if_neg (show ¬Config.window ≤ s.occupied p from not_le.mpr room)]
        refine ⟨fun none => ?_, fun i free low => ?_⟩
        · rw [freeSlot_eq_none.mpr none]
        · rw [freeSlot_eq_some free low]

end Sys2Proof.Machine
end

section
/-! SUPPORT. A CANCEL (R50, R51, R146, R152). -/
namespace Sys2Proof.Machine

section
variable {s : State} {p : PortId} {e : StoreIx} {tag named : Byte} {body : List Byte} {i : SlotId}

/-! ## The lookup of a tag (R24) -/

theorem liveTag_eq_none : s.liveTag p tag = none ↔
    ∀ i, (s.slot i).live = true → (s.slot i).owner = p → (s.slot i).tag ≠ tag := by
  simp [State.liveTag, mem_allSlots]

/-- The live requests of a port have different tags, so the lookup finds the one that bears the tag. -/
theorem liveTag_eq_some (h : s.PoolFits) (live : (s.slot i).live = true) (owner : (s.slot i).owner = p)
    (bears : (s.slot i).tag = tag) : s.liveTag p tag = some i := by
  obtain ⟨j, hj⟩ := Option.isSome_iff_exists.mp (liveTag_isSome.mpr ⟨i, live, owner, bears⟩)
  have found := List.find?_some hj
  simp only [Bool.and_eq_true, decide_eq_true_eq] at found
  obtain ⟨⟨liveJ, ownerJ⟩, bearsJ⟩ := found
  rw [hj, h.tags j i liveJ live (ownerJ.trans owner.symm) (bearsJ.trans bears.symm)]

/-! ## A CANCEL that passes the gate -/

/-- The state in which a CANCEL finds the entry that the gate reserved for its reply (R163). -/
def State.cancelling (s : State) (p : PortId) (e : StoreIx) : State :=
  s.setPort p ((s.port p).heard.setEntry e (some (StoreEntry.reserve .canreply)))

theorem gate_cancelling {k : StoreIx → State → State} (free : (s.port p).freeEntry = some e) :
    (s.heard p).gate p .canreply k = k e (s.cancelling p e) := by
  have heard : ((s.heard p).port p).freeEntry = some e := by rw [State.heard, port_setPort, heard_freeEntry, free]
  rw [gate_of_free heard, State.heard, port_setPort, setPort_setPort]
  rfl

/-- What is composed in the reserved entry is sent there as if it had been free (R159, R162). -/
theorem compose_cancelling (served : (s.port p).Served) (x : StoreEntry) :
    (s.cancelling p e).compose p e x = (s.heard p).sends p e x := by
  have ready : ((s.cancelling p e).port p).Served := by rw [State.cancelling, port_setPort]; exact served
  rw [compose_eq_sends ready, State.sends, State.sends, State.cancelling, State.heard]
  simp only [port_setPort, setPort_setPort, Port.sends_setEntry]

theorem execCancel_eq (h : s.Arrives p kindCancel tag body) :
    exec (.cancel p tag body) s = .next ((s.heard p).takeCancel p tag body) := by
  change execCancel p tag body s = _
  rw [execCancel, running_of h.running, completeCancel_eq h]

/-- A well-formed CANCEL looks up the request that its body names (R146). -/
theorem execCancel_named (h : s.Arrives p kindCancel tag [named]) (free : (s.port p).freeEntry = some e) :
    exec (.cancel p tag [named]) s = .next ((s.cancelling p e).cancelNamed p e tag named) := by
  rw [execCancel_eq h, State.takeCancel, gate_cancelling free]

/-- A CANCEL whose body is not one byte is refused (R146). -/
theorem execCancel_malformed (h : s.Arrives p kindCancel tag body) (free : (s.port p).freeEntry = some e)
    (malformed : body.length ≠ 1) :
    exec (.cancel p tag body) s = .next ((s.heard p).sends p e (refuseEntry .badfmt 0x12#8 tag)) := by
  rw [execCancel_eq h, State.takeCancel, gate_cancelling free]
  split
  · exact absurd rfl malformed
  · exact congrArg _ (compose_cancelling h.served _)

/-! ## The request named (R50, R51) -/

theorem cancelNamed_unknown (served : (s.port p).Served) (absent : s.liveTag p named = none) :
    (s.cancelling p e).cancelNamed p e tag named = (s.heard p).sends p e (canreplyEntry tag .unknown named) := by
  have absent : (s.cancelling p e).liveTag p named = none := absent
  rw [State.cancelNamed, absent]
  exact compose_cancelling served _

theorem cancelNamed_late (served : (s.port p).Served) (found : s.liveTag p named = some i)
    (late : (s.slot i).waiting = false) :
    (s.cancelling p e).cancelNamed p e tag named = (s.heard p).sends p e (canreplyEntry tag .tooLate named) := by
  have found : (s.cancelling p e).liveTag p named = some i := found
  have late : ((s.cancelling p e).slot i).waiting = false := late
  simp only [State.cancelNamed, found, late, Bool.false_eq_true, if_false]
  exact compose_cancelling served _

theorem cancelNamed_waiting (served : (s.port p).Served) (found : s.liveTag p named = some i)
    (waits : (s.slot i).waiting = true) :
    (s.cancelling p e).cancelNamed p e tag named =
      ((s.heard p).sends p e (canreplyEntry tag .removed named)).withdraw i .cancelled := by
  have found : (s.cancelling p e).liveTag p named = some i := found
  have waits : ((s.cancelling p e).slot i).waiting = true := waits
  simp only [State.cancelNamed, found, waits, if_true]
  exact congrArg (State.withdraw · i .cancelled) (compose_cancelling served _)

/-- A waiting request of a served port withdrawn (R36): its RESULT stands behind what the port's queue already holds. -/
theorem withdraw_setPort {v : Port} {st : Status} (owner : (s.slot i).owner = p) (served : v.Served) :
    (s.setPort p v).withdraw i st =
      ((s.setSlot i ((s.slot i).answered (.ofScheduler st))).setSeg (s.slot i).snapshot.segment
        { s.seg (s.slot i).snapshot.segment with
          list := (s.seg (s.slot i).snapshot.segment).list.filter fun j => decide (j ≠ i) }).setPort p
        (v.queued i ((s.slot i).answered (.ofScheduler st)).resultFrame) := by
  have own : ((s.setPort p v).port ((s.setPort p v).slot i).owner).Served := by
    rw [slot_setPort, owner, port_setPort]; exact served
  rw [withdraw_eq own]
  simp only [slot_setPort, seg_setPort, owner, port_setPort, setSlot_setPort, setPort_setPort, setSeg_setPort]

end

/-- Settles O19: the tag leads to the one live request of the port that bears it, and its state decides. -/
theorem cancelAnswersByTheRequestState : Obligations.CancelAnswersByTheRequestState := by
  refine ⟨rfl, fun _ _ _ => rfl, fun p tag e s free pool => ⟨fun named i arrives live owner bears => ?_,
    fun named arrives absent => ?_, fun body arrives malformed => execCancel_malformed arrives free malformed⟩⟩
  · have found := liveTag_eq_some pool live owner bears
    rw [execCancel_named arrives free]
    refine ⟨fun state => ?_, fun state => ?_⟩
    · have replied : (s.heard p).sends p e (canreplyEntry tag .removed named) =
          s.setPort p ((s.port p).heard.sends e (canreplyEntry tag .removed named)) := by
        rw [State.sends, State.heard, port_setPort, setPort_setPort]
      rw [cancelNamed_waiting arrives.served found (decide_eq_true state), replied,
        withdraw_setPort owner (Port.served_sends _ _ _)]
      rfl
    · have late : (s.slot i).waiting = false := by rcases state with state | state <;> simp [Slot.waiting, state]
      rw [cancelNamed_late arrives.served found late]
  · rw [execCancel_named arrives free, cancelNamed_unknown arrives.served (liveTag_eq_none.mpr absent)]

end Sys2Proof.Machine
end

section
/-! SUPPORT. The entries into FAULT (R54, R102, R105 to R107). -/
namespace Sys2Proof.Machine

/-! ## What the outgoing side makes of a segment's entry into a state -/

section
variable {s : State} {g : SegId}

@[simp] theorem withPorts_withPorts (s : State) (f f' : PortId → Port) : (s.withPorts f).withPorts f' = s.withPorts f' := rfl

theorem withPorts_setSeg (s : State) (g : SegId) (v : Seg) (f : PortId → Port) :
    (s.setSeg g v).withPorts f = (s.withPorts f).setSeg g v := by cases g <;> rfl

@[simp] theorem withPorts_port (s : State) : s.withPorts s.port = s :=
  State.ext_blocks rfl rfl (fun _ => rfl) (fun _ => rfl) (fun _ => by simp) (fun _ => by simp) rfl rfl rfl

/-- Notices to all ports, each of them served (R97, R103, R107). -/
theorem noticeTo_allPorts {kind : NoticeKind} {arg : Byte} (served : ∀ q, (s.port q).Served) :
    s.noticeTo allPorts kind arg = s.withPorts fun q => (s.port q).noticedIf kind arg := by
  obtain ⟨ports, rest⟩ := noticeTo_spec (kind := kind) (arg := arg) allPorts (by decide) s served
  rw [rest]
  refine State.ext_blocks rfl rfl (fun _ => rfl) (fun _ => rfl) (fun k => by cases k <;> rfl) (fun q => ?_) rfl rfl rfl
  rw [← rest, ports, if_pos (mem_allPorts q), port_withPorts]

theorem Port.served_recovered {v : Port} (h : v.Served) (q : PortId) (g : SegId) (r : Option Recovery) (st : MgmtStatus) :
    (v.recovered q g r st).Served := by
  unfold Port.recovered
  split
  · exact h
  · split
    · split
      · exact Port.served_sends _ _ _
      · exact h
    · exact h

/-- The answer to an outstanding recovery reaches the port that asked for it, and clears it (R103, R107, R164). -/
theorem answerRecovery_eq {st : MgmtStatus} (served : ∀ q, (s.port q).Served) : s.answerRecovery g st =
    (s.withPorts fun q => (s.port q).recovered q g (s.seg g).recovery st).setSeg g { s.seg g with recovery := none } := by
  unfold State.answerRecovery
  cases hr : (s.seg g).recovery with
  | none =>
    have same : ({ s.seg g with recovery := none } : Seg) = s.seg g := by rw [← hr]
    rw [same, ← withPorts_setSeg, setSeg_seg]
    exact (withPorts_port s).symm
  | some r =>
    have asking : (s.withPorts fun q => (s.port q).recovered q g (some r) st) =
        s.setPort r.port ((s.port r.port).recovered r.port g (some r) st) := by
      rw [setPort_eq_withPorts]
      congr 1
      funext q
      by_cases hq : q = r.port
      · rw [if_pos hq, hq]
      · rw [if_neg hq]; simp only [Port.recovered, if_neg (Ne.symm hq)]
    rw [asking]
    simp only [Port.recovered, if_true]
    cases he : (s.port r.port).reservedEntry g with
    | none => rw [setPort_port]
    | some e =>
      have ready : ((s.setSeg g { s.seg g with recovery := none }).port r.port).Served := by
        rw [port_setSeg]; exact served _
      dsimp only
      rw [mreply_eq_sends ready, State.sends, port_setSeg, setSeg_setPort]

/-! ## The list answered SEGFAULT (R54) -/

/-- A request record once the list of segment `g` has been answered SEGFAULT. -/
def State.faultSlot (s : State) (g : SegId) (i : SlotId) : Slot :=
  if i ∈ (s.seg g).list then (s.slot i).answered (.ofScheduler .segfault) else s.slot i

/-- A port once the list of segment `g` has been answered SEGFAULT. -/
def State.faultPort (s : State) (g : SegId) (q : PortId) : Port :=
  (s.port q).queuedAll ((s.seg g).list.filter fun i => decide ((s.slot i).owner = q))
    fun i => ((s.slot i).answered (.ofScheduler .segfault)).resultFrame

theorem served_faultPort (served : ∀ q, (s.port q).Served) (q : PortId) : (s.faultPort g q).Served :=
  Port.served_queuedAll (served q) _ _

/-- A list that is withdrawn whole leaves its segment's list empty and the other segment's as it was. -/
theorem listWithout_list (pool : s.PoolFits) (k : SegId) :
    s.listWithout k (s.seg g).list = if k = g then [] else (s.seg k).list := by
  unfold State.listWithout
  split
  · next hk =>
    subst hk
    exact List.filter_eq_nil_iff.mpr fun i hi => by simp [hi, ((pool.listed k i).mp hi).2]
  · next hk =>
    refine List.filter_eq_self.mpr fun i _ => decide_eq_true fun ⟨hi, hs⟩ => hk ?_
    rw [← hs, ((pool.listed g i).mp hi).2]

/-- The list of a segment answered SEGFAULT, whatever else of the segment has changed before. -/
theorem failList_setSeg (pool : s.PoolFits) (served : ∀ q, (s.port q).Served) {w : Seg} (list : w.list = (s.seg g).list) :
    (s.setSeg g w).failList g = ((s.withSlots (s.faultSlot g)).withPorts (s.faultPort g)).setSeg g { w with list := [] } := by
  have lists : ((s.setSeg g w).seg g).list = (s.seg g).list := by rw [seg_setSeg, list]
  obtain ⟨slots, ports, segs, rest⟩ := withdrawn_foldl .segfault (s.seg g).list (s.setSeg g w) (nodup_list pool g)
    (by simpa using served)
  rw [State.failList, lists]
  generalize (s.seg g).list.foldl (fun s i => s.withdraw i .segfault) (s.setSeg g w) = t at *
  have without k : (s.setSeg g w).listWithout k (s.seg g).list = if k = g then [] else (s.seg k).list := by
    rw [← listWithout_list pool]
    unfold State.listWithout
    simp only [slot_setSeg, seg_setSeg_eq]
    split
    · next hk => rw [hk, list]
    · rfl
  refine State.ext_blocks ?_ ?_ (fun u => ?_) (fun i => ?_) (fun k => ?_) (fun q => ?_) ?_ ?_ ?_
  · rw [rest]; simp
  · rw [rest]; simp
  · rw [rest]; simp [State.mapEntry, -map_get]
  · rw [slots]; simp [State.faultSlot]
  · rw [segs, without, seg_setSeg_eq, seg_setSeg_eq]
    split
    · rfl
    · simp
  · rw [ports]; simp [State.faultPort]
  · rw [rest]; simp
  · rw [rest]; simp
  · rw [rest]; simp [State.withSlots, State.withPorts]

/-! ## The entry into FAULT (R107) -/

/-- The segment `v` in FAULT, its list answered and its recovery cleared. -/
def Seg.faulted (v : Seg) : Seg := { v with engine := .fault, readyOwed := true, list := [], recovery := none }

theorem enterFault_setSeg (pool : s.PoolFits) (served : ∀ q, (s.port q).Served) {u : Seg} (list : u.list = (s.seg g).list) :
    (s.setSeg g u).enterFault g = ((s.withSlots (s.faultSlot g)).withPorts fun q =>
      ((s.faultPort g q).recovered q g u.recovery .failed).noticedIf .segFault (segCode g)).setSeg g
        (u.retime u.faulted) := by
  have entered : (s.setSeg g u).modSeg g (fun v => { v with engine := .fault, readyOwed := true }) =
      s.setSeg g (u.retime { u with engine := .fault, readyOwed := true }) := by
    rw [State.modSeg, seg_setSeg, setSeg_setSeg]
  have kept : (u.retime { u with engine := .fault, readyOwed := true }).list = (s.seg g).list := list
  rw [State.enterFault, entered, failList_setSeg pool served kept,
    answerRecovery_eq (by simpa using served_faultPort served), noticeTo_allPorts]
  · simp only [withPorts_setSeg, withPorts_withPorts, setSeg_setSeg, port_setSeg, port_withPorts, seg_setSeg]
    rfl
  · intro q
    simp only [port_setSeg, port_withPorts]
    exact Port.served_recovered (served_faultPort served q) _ _ _ _

/-- The entry into FAULT does what R107 says when the segment, as its lines are seen, becomes one in FAULT. -/
theorem faulted_enterFault (pool : s.PoolFits) (served : ∀ q, (s.port q).Served) {u w : Seg}
    (list : u.list = (s.seg g).list) (recovery : u.recovery = (s.seg g).recovery)
    (becomes : (s.seg g).Becomes w.faulted (u.retime u.faulted)) : s.Faulted ((s.setSeg g u).enterFault g) g w := by
  unfold State.Faulted
  rw [enterFault_setSeg pool served list, seg_setSeg, recovery]
  exact ⟨rfl, becomes⟩

end

/-- A segment that first sees its lines anew and then enters FAULT: its check timers stop, and its busy-long timer does as it
would had both come at once (R96, R101). -/
theorem becomes_faulted (v w : Seg) (engine : w.engine = v.engine) (inForce : w.inForce = v.inForce)
    (busy : w.monitor = .busy ↔ v.monitor = .busy) (timer : w.busyLongTimer = v.busyLongTimer) :
    v.Becomes w.faulted ((v.retime w).retime (v.retime w).faulted) := by
  have runs : w.monitor = .busy ∧ w.engine.isRun = false ∧ w.inForce.busyLongLimit ≠ 0 ↔
      v.monitor = .busy ∧ v.engine.isRun = false ∧ v.inForce.busyLongLimit ≠ 0 := by rw [busy, engine, inForce]
  have kept (h : v.monitor = .busy ∧ v.engine.isRun = false ∧ v.inForce.busyLongLimit ≠ 0) :
      (v.retime w).busyLongTimer = v.busyLongTimer := by
    have on : v.busyLongCond = true := by simpa [Seg.busyLongCond, and_assoc] using h
    have on' : w.busyLongCond = true := by simpa [Seg.busyLongCond, and_assoc] using runs.mpr h
    simp [Seg.retime, timerEdge, on, on', timer]
  obtain ⟨quiet, dataHeld, clockHeld, busyLong⟩ := retime_follows (v.retime w) (v.retime w).faulted rfl rfl rfl rfl
  refine ⟨rfl, quiet.trans (by simp [Seg.faulted]), dataHeld.trans (by simp [Seg.faulted]),
    clockHeld.trans (by simp [Seg.faulted]), busyLong.trans (if_congr Iff.rfl ?_ rfl)⟩
  by_cases h : v.monitor = .busy ∧ v.engine.isRun = false ∧ v.inForce.busyLongLimit ≠ 0
  · rw [if_pos h]
    exact (if_pos (runs.mpr h)).trans (kept h)
  · rw [if_neg h]
    exact if_neg (mt runs.mp h)

section
variable {s : State} {g : SegId}

theorem pulseOrFault_of_nine (nine : (s.seg g).pulseCount = 9) (scl : Bool) :
    s.pulseOrFault g scl = (s.modSeg g fun v => v.seeLow scl false).enterFault g := if_pos nine.ge

theorem faulted_now (pool : s.PoolFits) (served : ∀ q, (s.port q).Served) : s.Faulted (s.enterFault g) g (s.seg g) := by
  have := faulted_enterFault (w := s.seg g) pool served rfl rfl (retime_becomes _ _ rfl rfl rfl rfl)
  rwa [setSeg_seg] at this

/-- The same where the lines are seen at that moment. The count of pulses, with the pulse that has just ended, drives no
timer (R105). -/
theorem faulted_low (pool : s.PoolFits) (served : ∀ q, (s.port q).Served) (scl sda : Bool) (n : Nat) :
    s.Faulted (((s.setSeg g { s.seg g with pulseCount := n }).modSeg g fun v => v.seeLow scl sda).enterFault g) g
      { (s.seg g).lowSeen scl sda with pulseCount := n } := by
  have entered := faulted_enterFault (s := s) (g := g)
    (u := (s.seg g).retime { (s.seg g).lowSeen scl sda with pulseCount := n })
    (w := { (s.seg g).lowSeen scl sda with pulseCount := n }) pool served rfl rfl
    (becomes_faulted _ _ rfl rfl (by simp [Seg.lowSeen]) rfl)
  have seen : ({ s.seg g with pulseCount := n } : Seg).retime (({ s.seg g with pulseCount := n } : Seg).seeLow scl sda) =
      (s.seg g).retime { (s.seg g).lowSeen scl sda with pulseCount := n } := by
    rw [seeLow_eq]; rfl
  rw [State.modSeg, seg_setSeg, setSeg_setSeg, seen]
  exact entered

end

/-- Settles O49: each way sees the lines as told and enters FAULT, which answers the list, the recovery and the notices. -/
theorem faultAnswersTheList : Obligations.FaultAnswersTheList := by
  intro g s running pool served v faults
  have low (scl sda : Bool) : s.Faulted ((s.modSeg g fun v => v.seeLow scl sda).enterFault g) g (v.lowSeen scl sda) := by
    have entered := faulted_low (g := g) pool served scl sda v.pulseCount
    rwa [setSeg_seg] at entered
  refine ⟨fun held => ⟨_, ?_, faulted_now pool served⟩, fun closing => ⟨_, ?_, low false v.sda⟩,
    fun b recovering => ⟨_, ?_, low false v.sda⟩, fun pulsing eighth => ⟨_, ?_, faulted_low pool served true false 9⟩,
    fun stopping nine => ⟨⟨_, ?_, low true false⟩, ⟨_, ?_, low false false⟩⟩⟩
  · change execClockHeldTimerExpiry g s = _
    rw [execClockHeldTimerExpiry, running_of running, if_pos held]
  · change execClosingStopFails g .clockHeld s = _
    rw [execClosingStopFails, running_of running, if_pos closing]
    rfl
  · change execRecoveryClockHeld g s = _
    rw [execRecoveryClockHeld, running_of running, if_pos (by rw [recovering]; rfl)]
    rfl
  · change execReleasePulse g false s = _
    rw [execReleasePulse, running_of running, if_pos pulsing]
    have nine : (s.seg g).pulseCount + 1 = 9 := congrArg (· + 1) eighth
    have counted : ((s.setSeg g { s.seg g with pulseCount := 9 }).seg g).pulseCount = 9 := by rw [seg_setSeg]
    dsimp only
    rw [nine, if_neg Bool.false_ne_true, pulseOrFault_of_nine counted]
  · change execRecoveryStopComplete g .dataNotHigh s = _
    rw [execRecoveryStopComplete, running_of running, if_pos stopping]
    exact congrArg _ (pulseOrFault_of_nine nine _)
  · change execRecoveryStopComplete g .clockFell s = _
    rw [execRecoveryStopComplete, running_of running, if_pos stopping]
    exact congrArg _ (pulseOrFault_of_nine nine _)

end Sys2Proof.Machine
end

section
/-! SUPPORT. What an event of one segment can reach (R41, R98): its own segment, the records of its own requests, and at the
ports the outgoing side alone. -/
namespace Sys2Proof.Machine

/-! ## The reach of a segment -/

/-- A record that holds a request of segment `g`. -/
def Slot.Serves (r : Slot) (g : SegId) : Prop := r.state ≠ .free ∧ r.snapshot.segment = g

/-- Two ports agree in everything but the outgoing side: line, profile and counters, but for that of dropped notices. -/
def Port.SameLine (v w : Port) : Prop :=
  w = { v with
    tx := w.tx
    txFrame := w.txFrame
    queue := w.queue
    store := w.store
    noticeSeq := w.noticeSeq
    counters := { v.counters with noticesDropped := w.counters.noticesDropped } }

theorem Port.SameLine.refl (v : Port) : v.SameLine v := rfl

theorem Port.SameLine.trans {u v w : Port} (h : u.SameLine v) (h' : v.SameLine w) : u.SameLine w := by
  unfold Port.SameLine at *
  rw [h', h]

/-- From `s` to `t` nothing has changed but what an event of segment `g` reaches. -/
structure Confined (g : SegId) (s t : State) : Prop where
  segs : ∀ h, h ≠ g → t.seg h = s.seg h
  admissions : t.nextAdmission = s.nextAdmission
  requests : ∀ i, ¬(s.slot i).Serves g → t.slot i = s.slot i
  lines : ∀ p, (s.port p).SameLine (t.port p)

section
variable {g : SegId} {s t u : State} {p : PortId} {i : SlotId}

theorem Confined.refl : Confined g s s := ⟨fun _ _ => rfl, rfl, fun _ _ => rfl, fun _ => .refl _⟩

theorem Confined.trans (h : Confined g s t) (h' : Confined g t u) : Confined g s u where
  segs k hk := (h'.segs k hk).trans (h.segs k hk)
  admissions := h'.admissions.trans h.admissions
  requests i hi := (h'.requests i (by rwa [h.requests i hi])).trans (h.requests i hi)
  lines p := (h.lines p).trans (h'.lines p)

/-- An event that takes place only where a condition holds. -/
theorem confined_when {P : Prop} [Decidable P] (h : P → Confined g s t) : Confined g s (if P then t else s) := by
  split
  · next hp => exact h hp
  · exact .refl

/-! ## Blocks replaced -/

theorem confined_setSeg (v : Seg) : Confined g s (s.setSeg g v) where
  segs _ hk := seg_setSeg_ne s v hk
  admissions := nextAdmission_setSeg s g v
  requests i _ := slot_setSeg s g v i
  lines p := by rw [port_setSeg]; exact .refl _

@[simp] theorem slot_modSeg (f : Seg → Seg) : (s.modSeg g f).slot i = s.slot i := slot_setSeg s g _ i

theorem confined_modSeg (f : Seg → Seg) : Confined g s (s.modSeg g f) := confined_setSeg _

theorem confined_setSlot {r : Slot} (own : (s.slot i).Serves g) : Confined g s (s.setSlot i r) where
  segs k _ := seg_setSlot s i r k
  admissions := rfl
  requests _ hj := slot_setSlot_ne s r fun e => hj (e ▸ own)
  lines _ := .refl _

theorem confined_setPort {v : Port} (h : (s.port p).SameLine v) : Confined g s (s.setPort p v) where
  segs k _ := seg_setPort s p v k
  admissions := rfl
  requests _ _ := rfl
  lines q := by
    rw [port_setPort_eq]
    split
    · next e => rw [e]; exact h
    · exact .refl _

theorem confined_modPort {f : Port → Port} (h : (s.port p).SameLine (f (s.port p))) : Confined g s (s.modPort p f) :=
  confined_setPort h

/-- A fold of confined steps is confined. -/
theorem confined_foldl {α : Type} {f : State → α → State} (h : ∀ s x, Confined g s (f s x)) (l : List α) (s : State) :
    Confined g s (l.foldl f s) := by
  induction l generalizing s with
  | nil => exact .refl
  | cons x l ih => exact (h s x).trans (ih _)

/-! ## The outgoing side (R158 to R165) -/

theorem confined_give : Confined g s (s.give p) := by
  unfold State.give
  split
  · next item _ _ _ => exact confined_setPort (by cases item <;> rfl)
  · exact .refl

theorem confined_enqueue (item : Item) : Confined g s (s.enqueue p item) :=
  (confined_modPort (f := fun v => { v with queue := v.queue ++ [item] }) rfl).trans confined_give

theorem confined_compose (e : StoreIx) (x : StoreEntry) : Confined g s (s.compose p e x) :=
  (confined_modPort (f := fun v => v.setEntry e (some x)) rfl).trans (confined_enqueue _)

theorem sameLine_room {v w : Port} {e : StoreIx} (h : v.room = some (e, w)) : v.SameLine w := by
  unfold Port.room at h
  split at h
  · cases h; rfl
  · split at h <;> cases h
    rfl

theorem confined_notice (kind : NoticeKind) (arg : Byte) : Confined g s (s.notice p kind arg) := by
  unfold State.notice
  refine Confined.trans (t := s.modPort p fun v => { v with noticeSeq := v.noticeSeq + 1 }) (confined_modPort rfl) ?_
  dsimp only
  split
  · next h => exact (confined_setPort (sameLine_room h)).trans (confined_compose _ _)
  · exact confined_modPort rfl

theorem confined_noticeTo (ps : List PortId) (kind : NoticeKind) (arg : Byte) :
    Confined g s (s.noticeTo ps kind arg) :=
  confined_foldl (fun _ _ => confined_when fun _ => confined_notice kind arg) ps s

/-! ## The requests of the segment -/

theorem confined_answer {res : Result} (own : (s.slot i).Serves g) : Confined g s (s.answer i res) :=
  (confined_setSlot own).trans (confined_enqueue _)

theorem confined_unlist (own : (s.slot i).snapshot.segment = g) : Confined g s (s.unlist i) := by
  subst own; exact confined_setSeg _

theorem confined_rejoin (own : (s.slot i).snapshot.segment = g) : Confined g s (s.rejoin i) := by
  subst own; exact confined_setSeg _

theorem confined_withdraw {st : Status} (own : (s.slot i).Serves g) : Confined g s (s.withdraw i st) :=
  (confined_unlist own.2).trans (confined_answer (by rw [State.unlist, slot_setSeg]; exact own))

theorem confined_withdrawAll {st : Status} (l : List SlotId) (s : State) (own : ∀ i ∈ l, (s.slot i).Serves g) :
    Confined g s (l.foldl (fun s i => s.withdraw i st) s) := by
  induction l generalizing s with
  | nil => exact .refl
  | cons i l ih =>
    refine (confined_withdraw (own i List.mem_cons_self)).trans (ih _ fun j hj => ?_)
    rw [slot_withdrawn]
    split
    · exact ⟨nofun, (own i List.mem_cons_self).2⟩
    · exact own j (List.mem_cons_of_mem i hj)

/-- The requests of a segment's list are its own (R41). -/
theorem serves_of_listed (h : s.PoolFits) (hi : i ∈ (s.seg g).list) : (s.slot i).Serves g := by
  obtain ⟨waits, own⟩ := (h.listed g i).mp hi
  exact ⟨fun free => (by rw [Slot.waiting, free] at waits; cases waits), own⟩

/-- The request of a segment's running attempt is its own (R30). -/
def State.RunsOwn (s : State) (g : SegId) : Prop := ∀ a, (s.seg g).engine = .run a → (s.slot a.slot).Serves g

theorem runsOwn_of_pool (h : s.PoolFits) (g : SegId) : s.RunsOwn g := fun a hr => by
  obtain ⟨active, own⟩ := h.running g a hr
  exact ⟨by rw [active]; nofun, own⟩

theorem confined_choose (h : s.PoolFits) (eligible : s.IsEligible g i) : Confined g s (s.choose g i) where
  segs k hk := by rw [choose_frame, seg_setSeg_ne _ _ hk, seg_withSlots]
  admissions := by rw [choose_frame, nextAdmission_setSeg, nextAdmission_withSlots]
  requests j hj := by
    have other : j ≠ i := fun e => hj (e ▸ serves_of_listed h eligible.1)
    have behind : j ∉ s.passed g i := fun hm => hj (serves_of_listed h ((mem_passed h eligible).mp hm).1.1)
    rw [slot_choose h, if_neg other, if_neg behind]
  lines p := by rw [choose_frame, port_setSeg, port_withSlots]; exact .refl _

/-! ## Entries into engine states (R54, R103, R107) -/

theorem confined_answerRecovery (st : MgmtStatus) : Confined g s (s.answerRecovery g st) := by
  unfold State.answerRecovery
  split
  · exact .refl
  · dsimp only
    split
    · exact (confined_setSeg _).trans (confined_compose _ _)
    · exact confined_setSeg _

theorem confined_enterIdle : Confined g s (s.enterIdle g) := by
  have answered : Confined g s ((s.modSeg g fun v => { v with engine := .idle }).answerRecovery g .done) :=
    (confined_modSeg _).trans (confined_answerRecovery _)
  unfold State.enterIdle
  dsimp only
  split
  · exact answered.trans ((confined_setSeg _).trans (confined_noticeTo _ _ _))
  · exact answered

theorem confined_enterFault (own : ∀ i ∈ (s.seg g).list, (s.slot i).Serves g) : Confined g s (s.enterFault g) := by
  refine Confined.trans (confined_modSeg fun v => { v with engine := .fault, readyOwed := true }) ?_
  refine (confined_withdrawAll _ _ fun i hi => ?_).trans ((confined_answerRecovery _).trans (confined_noticeTo _ _ _))
  rw [seg_modSeg] at hi
  rw [slot_modSeg]
  exact own i hi

theorem confined_faultLow {f : Seg → Bool} {scl : Bool} (own : ∀ i ∈ (s.seg g).list, (s.slot i).Serves g) :
    Confined g s ((s.modSeg g fun v => v.seeLow scl (f v)).enterFault g) := by
  refine (confined_modSeg _).trans (confined_enterFault fun i hi => ?_)
  rw [seg_modSeg, retime_list, (seeLow_keeps _ _ _).1] at hi
  rw [slot_modSeg]
  exact own i hi

theorem confined_pulseOrFault {scl : Bool} (own : ∀ i ∈ (s.seg g).list, (s.slot i).Serves g) :
    Confined g s (s.pulseOrFault g scl) := by
  unfold State.pulseOrFault
  split
  · exact confined_faultLow (f := fun _ => false) own
  · exact confined_modSeg _

/-! ## The end of an attempt (R31 to R34, R77) -/

theorem Answers.state {r v : Slot} {a : Attempt} {f : Option Failure} {res : Result} (h : Answers r a f v res) :
    v.state = r.state := by cases h <;> rfl

theorem confined_settle {a : Attempt} {f : Option Failure} (own : (s.slot a.slot).Serves g) :
    Confined g s (s.settle a f) := by
  rcases settle_cases s a f with freed | ⟨_, ⟨r, res, answers, answered⟩ | ⟨r, returns, returned⟩⟩
  · rw [freed]; exact confined_setSlot own
  · rw [answered]
    refine (confined_setSlot own).trans (confined_answer ?_)
    rw [slot_setSlot, Slot.Serves, answers.state, snapshot_of_request answers.request]
    exact own
  · rw [returned]
    refine (confined_setSlot own).trans (confined_rejoin ?_)
    rw [slot_setSlot, snapshot_of_request returns.request]
    exact own.2

variable {a : Attempt}

theorem confined_endAttempt {first : Option Failure} {second : Option FailKind} {b c : Bool}
    (own : (s.slot a.slot).Serves g) : Confined g s (s.endAttempt g a first second b c) :=
  (confined_settle own).trans (confined_modSeg _)

/-- A segment changed without its engine runs an attempt of its own still. -/
theorem State.RunsOwn.modSeg {f : Seg → Seg} (h : s.RunsOwn g) (engine : (f (s.seg g)).engine = (s.seg g).engine) :
    (s.modSeg g f).RunsOwn g := fun a hr => by
  rw [seg_modSeg, retime_engine, engine] at hr
  rw [slot_modSeg]
  exact h a hr

theorem runsOwn_endAttempt {first : Option Failure} {second : Option FailKind} {b c : Bool} :
    (s.endAttempt g a first second b c).RunsOwn g := fun d hr => by
  have up := duty_leaveRun ((s.settle a first).seg g) first second b c
  rw [State.endAttempt, seg_modSeg, retime_engine] at hr
  rw [hr] at up
  cases up

theorem confined_inRun {f : Attempt → State} (h : ∀ a, (s.seg g).engine = .run a → Confined g s (f a)) :
    Confined g s (s.inRun g f) := by
  unfold State.inRun
  split
  · next a ha =>
    refine h a ?_
    cases he : (s.seg g).engine <;> rw [he] at ha <;> cases ha
    rfl
  · exact .refl

theorem confined_openAttempt (own : (s.slot a.slot).Serves g) : Confined g s (s.openAttempt g a) := by
  unfold State.openAttempt
  exact (confined_setSlot own).trans (confined_modSeg _)

theorem confined_meetStart (h : s.RunsOwn g) : Confined g s (s.meetStart g) ∧ (s.meetStart g).RunsOwn g := by
  unfold State.meetStart
  split
  · next a ha =>
    split
    · exact ⟨confined_endAttempt (h a ha), runsOwn_endAttempt⟩
    · exact ⟨.refl, h⟩
  · exact ⟨.refl, h⟩

theorem confined_meetCondition (h : s.RunsOwn g) : Confined g s (s.meetCondition g) := by
  unfold State.meetCondition
  split
  · next a ha => exact confined_when fun _ => confined_endAttempt (h a ha)
  · exact .refl

theorem confined_meetRestart : Confined g s (s.meetRestart g) :=
  confined_inRun fun _ _ => confined_when fun _ => confined_modSeg _

theorem confined_meetClockLow (fell : Bool) : Confined g s (s.meetClockLow g fell) :=
  confined_inRun fun _ _ => confined_modSeg _

theorem confined_stretchOut (own : (s.slot a.slot).Serves g) : Confined g s (s.stretchOut g a) := by
  unfold State.stretchOut
  split <;> exact confined_endAttempt own

/-- An attempt past a clock that falls is still that of its request. -/
theorem serves_clockFalls {f : Seg → Seg} {r : Slot} (own : (s.slot a.slot).Serves g) :
    ((s.modSeg g f).slot (a.clockFalls r).slot).Serves g := by
  rw [slot_modSeg, (clockFalls_keeps a r).2]; exact own

theorem confined_loseArbitration {how : LossCause} (own : (s.slot a.slot).Serves g) :
    Confined g s (s.loseArbitration g a how) := by
  unfold State.loseArbitration
  split
  · exact confined_endAttempt own
  · split
    · exact confined_endAttempt (a := a.lose) own
    · exact confined_modSeg _

/-- A command that is an attempt's stop completed (R64, R73 to R77, R80). -/
theorem confined_stopped {kind : Option FailKind} {toCheck : Bool} (h : s.RunsOwn g) :
    Confined g s (s.inRun g fun a => if a.stopsWith kind then s.completeStop g a toCheck else s) :=
  confined_inRun fun a ha => confined_when fun _ =>
    (confined_modSeg Seg.ownStop).trans (confined_endAttempt (by rw [slot_modSeg]; exact h a ha))

/-! ## Commands -/

theorem confined_of_running {f : State → State} (hn : s.running f = .next t) (hf : Confined g s (f s)) : Confined g s t := by
  rcases running_next hn with rfl | rfl
  · exact .refl
  · exact hf

/-- The commands that name a segment are confined to it. -/
theorem exec_confined {c : Instr} (hg : segmentOf c = some g) (h : s.PoolFits) (hn : exec c s = .next t) :
    Confined g s t := by
  have runs := runsOwn_of_pool h g
  have listed : ∀ i ∈ (s.seg g).list, (s.slot i).Serves g := fun i => serves_of_listed h
  cases c with
  | choice k =>
    cases hg
    unfold exec execChoice at hn
    refine confined_of_running hn (confined_when fun _ => ?_)
    split
    · next hb => exact confined_choose h (best_spec h hb).1
    · exact .refl
  | openingStart k =>
    cases hg
    unfold exec execOpeningStart at hn
    exact confined_of_running hn (confined_inRun fun a ha => confined_when fun _ => confined_openAttempt (runs a ha))
  | attemptEndsOk k =>
    cases hg
    unfold exec execAttemptEndsOk at hn
    exact confined_of_running hn (confined_stopped runs)
  | attemptEndsAddressNack k =>
    cases hg
    unfold exec execAttemptEndsAddressNack at hn
    exact confined_of_running hn (confined_stopped runs)
  | attemptEndsDataNack k =>
    cases hg
    unfold exec execAttemptEndsDataNack at hn
    exact confined_of_running hn (confined_stopped runs)
  | attemptEndsAborted k =>
    cases hg
    unfold exec execAttemptEndsAborted at hn
    exact confined_of_running hn (confined_stopped runs)
  | attemptEndsArbitrationLost k =>
    cases hg
    unfold exec execAttemptEndsArbitrationLost at hn
    exact confined_of_running hn (confined_inRun fun a ha => confined_when fun _ => confined_endAttempt (runs a ha))
  | stretchTimeout k =>
    cases hg
    unfold exec execStretchTimeout at hn
    refine confined_of_running hn (confined_inRun fun a ha => ?_)
    split
    · exact .refl
    · exact (confined_modSeg _).trans (confined_stretchOut (serves_clockFalls (runs a ha)))
  | acknowledgeBitRead k data ninth =>
    cases hg
    unfold exec execAcknowledgeBitRead at hn
    exact confined_of_running hn (confined_inRun fun a _ => confined_when fun _ => confined_modSeg _)
  | arbitrationLost k how =>
    cases hg
    unfold exec execArbitrationLost at hn
    exact confined_of_running hn (confined_inRun fun a ha => confined_when fun _ =>
      (confined_modSeg _).trans (confined_loseArbitration (serves_clockFalls (runs a ha))))
  | monitorStartSeen k =>
    cases hg
    unfold exec execMonitorStartSeen at hn
    obtain ⟨met, owns⟩ := confined_meetStart (runs.modSeg (f := fun v => v.monitorStart.see true false) (start_keeps _).2)
    exact confined_of_running hn
      ((confined_modSeg _).trans (met.trans ((confined_meetCondition owns).trans confined_meetRestart)))
  | monitorStopSeen k =>
    cases hg
    unfold exec execMonitorStopSeen at hn
    refine confined_of_running hn ?_
    split
    · exact .refl
    · exact (confined_modSeg _).trans (confined_meetCondition (runs.modSeg (monitorStop_keeps _).2))
  | lineLow k l =>
    cases hg
    unfold exec execLineLow at hn
    have met := (confined_meetStart (runs.modSeg (f := fun v => v.seeLow l.clock l.data) (seeLow_keeps _ _ _).2)).1
    refine confined_of_running hn ?_
    split
    · exact .refl
    · dsimp only
      split
      · exact (confined_modSeg _).trans met
      · exact (confined_modSeg _).trans (met.trans (confined_meetClockLow _))
  | bothLinesHigh k =>
    cases hg
    unfold exec execBothLinesHigh at hn
    exact confined_of_running hn (confined_modSeg _)
  | busFreeTimerExpiry k =>
    cases hg
    unfold exec execBusFreeTimerExpiry at hn
    exact confined_of_running hn (confined_when fun _ => confined_modSeg _)
  | busyLongTimerExpiry k =>
    cases hg
    unfold exec execBusyLongTimerExpiry at hn
    refine confined_of_running hn (confined_when fun _ => ?_)
    dsimp only
    split
    · exact confined_setSeg _
    · exact ((confined_setSeg _).trans (confined_setSeg _)).trans (confined_noticeTo _ _ _)
  | quietTimerExpiry k =>
    cases hg
    unfold exec execQuietTimerExpiry at hn
    refine confined_of_running hn (confined_when fun _ => ?_)
    split
    · exact confined_modSeg _
    · exact confined_enterIdle
  | dataHeldTimerExpiry k =>
    cases hg
    unfold exec execDataHeldTimerExpiry at hn
    exact confined_of_running hn (confined_when fun _ => confined_modSeg _)
  | clockHeldTimerExpiry k =>
    cases hg
    unfold exec execClockHeldTimerExpiry at hn
    exact confined_of_running hn (confined_when fun _ => confined_enterFault listed)
  | closingStopComplete k =>
    cases hg
    unfold exec execClosingStopComplete at hn
    exact confined_of_running hn (confined_when fun _ => (confined_modSeg _).trans confined_enterIdle)
  | closingStopFails k how =>
    cases hg
    unfold exec execClosingStopFails at hn
    refine confined_of_running hn (confined_when fun _ => ?_)
    cases how with
    | dataNotHigh => exact confined_modSeg _
    | clockFell => exact confined_modSeg _
    | clockHeld => exact confined_faultLow listed
  | releasePulse k data =>
    cases hg
    unfold exec execReleasePulse at hn
    refine confined_of_running hn (confined_when fun _ => ?_)
    have counted : Confined g s (s.setSeg g { s.seg g with pulseCount := (s.seg g).pulseCount + 1 }) := confined_setSeg _
    dsimp only
    split
    · exact counted.trans (confined_modSeg _)
    · exact counted.trans (confined_pulseOrFault (by simpa using listed))
  | recoveryClockHeld k =>
    cases hg
    unfold exec execRecoveryClockHeld at hn
    exact confined_of_running hn (confined_when fun _ => confined_faultLow listed)
  | recoveryStopComplete k how =>
    cases hg
    unfold exec execRecoveryStopComplete at hn
    refine confined_of_running hn (confined_when fun _ => ?_)
    cases how with
    | complete => exact confined_modSeg _
    | dataNotHigh => exact confined_pulseOrFault listed
    | clockFell => exact confined_pulseOrFault listed
  | _ => cases hg

end

/-- Settles O59: what a segment's command can reach is its own segment, its own requests, and the outgoing sides. -/
theorem segmentsAreIndependent : Obligations.SegmentsAreIndependent := by
  intro c g h s t hg other pool hn
  have confined := exec_confined hg pool hn
  have charter : t.charter = s.charter := by
    cases segment_change hg hn with
    | kept same => exact same
    | reset cause =>
      rcases cause with rfl | ⟨_, _, rfl⟩ | ⟨_, _, _, _, rfl, _⟩ <;> cases hg
    | managed p op carries => cases carries <;> cases hg
  refine ⟨confined.segs h other, congrArg Charter.map charter, congrArg Charter.managers charter, confined.admissions,
    fun i apart => confined.requests i fun ⟨occupied, own⟩ => ?_, confined.lines⟩
  rcases apart with free | elsewhere
  · exact occupied free
  · exact other (elsewhere.symm.trans own)

end Sys2Proof.Machine
end

section
/-! SUPPORT. What a command makes of a running attempt, and what the end of an attempt makes of its segment (R68, R77, R96,
R100, R101). -/
namespace Sys2Proof.Machine

variable {s : State} {g : SegId} {a c : Attempt}

/-! ## A command that meets an attempt -/

theorem inRun_of {f : Attempt → State} (h : (s.seg g).engine = .run a) : s.inRun g f = f a := by
  rw [State.inRun, h]; rfl

theorem inRun_of_not {f : Attempt → State} (h : (s.seg g).engine.isRun = false) : s.inRun g f = s := by
  unfold State.inRun
  split
  · next a ha => cases e : (s.seg g).engine <;> simp [e, Engine.attempt, Engine.isRun] at ha h
  · rfl

/-! ## A segment that becomes another -/

/-- A segment replaced is what the statements call a segment that becomes another, with nothing else changed. -/
theorem exec_becomes {i : Instr} {w x : Seg} (h : exec i s = .next (s.setSeg g x)) (becomes : (s.seg g).Becomes w x) :
    ∃ t, exec i s = .next t ∧ t = s.setSeg g (t.seg g) ∧ (s.seg g).Becomes w (t.seg g) :=
  ⟨_, h, by rw [seg_setSeg], by rwa [seg_setSeg]⟩

/-- No timer that levels and states drive runs while the engine is in RUN (R96, R101), so a change that begins there starts
each timer whose condition it brings about, whatever came between. -/
theorem becomes_of_run {v u w w' : Seg} (hv : v.engine.isRun = true) (hu : u.engine.isRun = true)
    (h : w.AgreesButTimers w') : v.Becomes w' (u.retime w) := by
  have notCheck {x : Seg} (hx : x.engine.isRun = true) : x.engine ≠ .check false := fun e => by rw [e] at hx; cases hx
  refine ⟨AgreesButTimers.trans _ _ (retime_agrees u w) h, ?_, ?_, ?_, ?_⟩
  · simp [Seg.retime, timerEdge, Seg.quietCond, Seg.observing, notCheck hv, notCheck hu, and_assoc]
  · simp [Seg.retime, timerEdge, Seg.dataHeldCond, Seg.observing, notCheck hv, notCheck hu, Config.dataHeldMs, and_assoc]
  · simp [Seg.retime, timerEdge, Seg.clockHeldCond, Seg.observing, notCheck hv, notCheck hu]
  · simp [Seg.retime, timerEdge, Seg.busyLongCond, hv, hu, and_assoc]

/-- The lines seen anew, and then the attempt's record replaced (R67). -/
theorem setAttempt_becomes {f : Seg → Seg} {w : Seg} (running : (s.seg g).engine = .run c) (sees : f (s.seg g) = w)
    (engine : w.engine = (s.seg g).engine) :
    (s.modSeg g f).setAttempt g a = s.setSeg g (((s.modSeg g f).setAttempt g a).seg g) ∧
      (s.seg g).Becomes { w with engine := .run a } (((s.modSeg g f).setAttempt g a).seg g) := by
  subst sees
  have set : (s.modSeg g f).setAttempt g a = s.setSeg g (((s.seg g).retime (f (s.seg g))).retime
      { (s.seg g).retime (f (s.seg g)) with engine := .run a }) := by
    rw [State.setAttempt, modSeg_eq, modSeg_eq, seg_setSeg, setSeg_setSeg]
  rw [set, seg_setSeg]
  exact ⟨rfl, becomes_of_run (by rw [running]; rfl) (by rw [retime_engine, engine, running]; rfl) rfl⟩

/-! ## The pool at the end of an attempt -/

/-- The state with the segment `w`, but for the pending list, which stays. -/
def State.reseg (s : State) (g : SegId) (w : Seg) : State := s.setSeg g { w with list := (s.seg g).list }

theorem reseg_of_list {w : Seg} (h : w.list = (s.seg g).list) : s.setSeg g w = s.reseg g w := by
  rw [State.reseg, ← h]

section
variable (s : State) (g : SegId) (w : Seg)

@[simp] theorem slot_reseg (i : SlotId) : (s.reseg g w).slot i = s.slot i := slot_setSeg ..

theorem setSlot_reseg (i : SlotId) (r : Slot) : (s.reseg g w).setSlot i r = (s.setSlot i r).reseg g w := by
  rw [State.reseg, State.reseg, setSeg_setSlot, seg_setSlot]

theorem setPort_reseg (p : PortId) (v : Port) : (s.reseg g w).setPort p v = (s.setPort p v).reseg g w := by
  rw [State.reseg, State.reseg, setSeg_setPort, seg_setPort]

theorem give_reseg (p : PortId) : (s.reseg g w).give p = (s.give p).reseg g w := by
  have port : (s.reseg g w).port p = s.port p := port_setSeg ..
  have frame (item : Item) : (s.reseg g w).itemFrame p item = s.itemFrame p item := by
    cases item <;> simp [State.itemFrame, port]
  simp only [State.give, port, frame, setPort_reseg]
  split <;> rfl

theorem answer_reseg (i : SlotId) (res : Result) : (s.reseg g w).answer i res = (s.answer i res).reseg g w := by
  have port (t : State) (p : PortId) : (t.reseg g w).port p = t.port p := port_setSeg ..
  simp only [State.answer, State.enqueue, State.modSlot, State.modPort, slot_reseg, setSlot_reseg, port, setPort_reseg,
    give_reseg]

theorem rejoin_reseg (i : SlotId) : (s.reseg g w).rejoin i = (s.rejoin i).reseg g w := by
  simp only [State.rejoin, slot_reseg]
  generalize (s.slot i).snapshot.segment = k
  cases g <;> cases k <;> rfl

theorem goBack_reseg (i : SlotId) (st : RequestState) (timer : Option Nat) :
    (s.reseg g w).goBack i st timer = (s.goBack i st timer).reseg g w := by
  simp only [State.goBack, State.modSlot, slot_reseg, answer_reseg, setSlot_reseg, rejoin_reseg]
  split <;> rfl

/-- What the pool makes of an attempt that ends reads of a segment its pending list alone. -/
theorem settle_reseg (a : Attempt) (f : Option Failure) : (s.reseg g w).settle a f = (s.settle a f).reseg g w := by
  have failed (i : SlotId) (f : Failure) (n : Nat) :
      (s.reseg g w).afterFailure i f n = (s.afterFailure i f n).reseg g w := by
    unfold State.afterFailure State.afterAddressNack State.afterLoss State.modSlot
    simp only [slot_reseg, setSlot_reseg, answer_reseg, goBack_reseg]
    split
    · split <;> rfl
    · split <;> rfl
    all_goals rfl
  unfold State.settle State.releaseSlot
  simp only [slot_reseg, setSlot_reseg, answer_reseg, failed]
  split
  · rfl
  · split <;> rfl

end

/-- The pool changes nothing of a segment but its pending list. -/
theorem seg_settle (s : State) (g : SegId) (a : Attempt) (f : Option Failure) :
    (s.settle a f).seg g = { s.seg g with list := ((s.settle a f).seg g).list } := by
  rcases settle_cases s a f with h | ⟨_, ⟨r, res, _, h⟩ | ⟨r, _, h⟩⟩ <;> rw [h]
  · rw [State.releaseSlot, seg_setSlot]
  · rw [seg_answer, seg_setSlot]
  · rw [seg_rejoin, seg_setSlot]
    split <;> rfl

/-! ## The end of an attempt -/

/-- What leaving RUN makes of a segment, its timers apart (R77, R100). -/
def Seg.afterRun (v : Seg) (first : Option Failure) (second : Option FailKind) (toCheck opens : Bool) : Seg :=
  { (if toCheck then v.checking else { v with engine := .idle }) with
    counters := v.counters.countEnd first second
    stopOwed := v.stopOwed || opens }

/-- The end of an attempt whose segment has become `u` in the same command, with the engine still in RUN (R77). -/
theorem ended_setSeg {first : Option Failure} {second : Option FailKind} {toCheck opens : Bool} {u w : Seg}
    (running : (s.seg g).engine = .run c) (u_running : u.engine.isRun = true) (list : u.list = (s.seg g).list)
    (agrees : u.AgreesButTimers w) :
    s.Ended ((s.setSeg g u).endAttempt g a first second toCheck opens) g a first
      (w.afterRun first second toCheck opens) := by
  have leaves (l : List SlotId) : (({ u with list := l } : Seg).leaveRun first second toCheck opens).AgreesButTimers
      { w.afterRun first second toCheck opens with list := l } := by
    rw [agrees]
    cases toCheck <;> rfl
  rw [reseg_of_list list, State.endAttempt, settle_reseg, State.reseg, modSeg_eq, seg_setSeg, setSeg_setSeg]
  refine ⟨by rw [seg_setSeg], ?_⟩
  rw [seg_setSeg]
  exact becomes_of_run (by rw [running]; rfl) u_running (leaves _)

/-- The same where the segment has seen its lines anew. -/
theorem ended_modSeg {first : Option Failure} {second : Option FailKind} {toCheck opens : Bool} {f : Seg → Seg} {w : Seg}
    (running : (s.seg g).engine = .run c) (sees : f (s.seg g) = w) (engine : w.engine = (s.seg g).engine)
    (list : w.list = (s.seg g).list) :
    s.Ended ((s.modSeg g f).endAttempt g a first second toCheck opens) g a first
      (w.afterRun first second toCheck opens) := by
  subst sees
  exact ended_setSeg running (by rw [retime_engine, engine, running]; rfl) list (retime_agrees _ _)

/-- The same where nothing has changed before. -/
theorem ended_now {first : Option Failure} {second : Option FailKind} {toCheck opens : Bool}
    (running : (s.seg g).engine = .run c) :
    s.Ended (s.endAttempt g a first second toCheck opens) g a first ((s.seg g).afterRun first second toCheck opens) := by
  have := ended_setSeg (a := a) (first := first) (second := second) (toCheck := toCheck) (opens := opens) running
    (u := s.seg g) (by rw [running]; rfl) rfl (AgreesButTimers.refl _)
  rwa [setSeg_seg] at this

end Sys2Proof.Machine
end

section
/-! SUPPORT. The opening start and the stops of an attempt (R61, R62, R64, R73 to R77, R80, R86). -/
namespace Sys2Proof.Machine

variable {s : State} {g : SegId} {a : Attempt}

theorem exec_openingStart (hr : s.resetn = true) (running : (s.seg g).engine = .run a) : exec (.openingStart g) s = .next
    (if a.timing = none ∧ (s.seg g).monitor = .free ∧ (s.seg g).scl = true ∧ (s.seg g).sda = true then
        s.openAttempt g a
      else s) := by
  change execOpeningStart g s = _
  rw [execOpeningStart, running_of hr, inRun_of running]

/-- The clock phases of R61 in sixteenths of a microsecond. -/
theorem capture_eq (r : Slot) (t : Timing) : AttemptTiming.capture r t =
    ⟨(if r.snapshot.speed = .standard then 88 else 24) * (8 + r.snapshot.slowDown) / 8,
      (if r.snapshot.speed = .standard then 72 else 16) * (8 + r.snapshot.slowDown) / 8, t.stretchTimeout⟩ := by
  cases h : r.snapshot.speed <;> simp [AttemptTiming.capture, lowPhase, highPhase, h] <;> omega

/-- Settles O40: the start is seen by the monitor in the command that captures the timing. -/
theorem openingStartBeginsTheAttempt : Obligations.OpeningStartBeginsTheAttempt := by
  intro g a s hr running v r low high
  have opens := exec_openingStart hr running
  refine ⟨fun cannot => ?_, fun unopened free clock data =>
    ⟨_, opens.trans (congrArg _ (if_pos ⟨unopened, free, clock, data⟩)), ?_, ?_⟩⟩
  · refine opens.trans (congrArg _ (if_neg ?_))
    rintro ⟨unopened, free, clock, data⟩
    simp [v, unopened, free, clock, data] at cannot
  · rw [State.openAttempt, modSeg_eq, seg_setSeg]
    rfl
  · rw [State.openAttempt, seg_modSeg, State.modSlot, seg_setSlot, start_eq, capture_eq]
    exact becomes_of_run (by rw [running]; rfl) (by rw [running]; rfl) rfl

/-- An attempt in STOP, or aborted, completes its stop with the failure recorded (log entry 9). -/
theorem stopsWith_iff {kind : Option FailKind} : a.stopsWith kind = true ↔
    (a.phase = .stop ∨ a.failure.map Failure.kind = some .aborted) ∧ a.following = false ∧
      a.failure.map Failure.kind = kind := by
  by_cases stop : a.phase = .stop <;> simp [Attempt.stopsWith, Attempt.aborting, stop, and_assoc]

/-- A command that completes a stop ends the attempt with the failure recorded (R73 to R75, R80). -/
theorem exec_stopped {i : Instr} {f : Option Failure} (toCheck : Bool)
    (completes : exec i s = s.running fun s => s.inRun g fun a =>
      if a.stopsWith (f.map Failure.kind) then s.completeStop g a toCheck else s)
    (hr : s.resetn = true) (running : (s.seg g).engine = .run a) (drives : a.following = false) (failure : a.failure = f)
    (stop : a.phase = .stop ∨ f.map Failure.kind = some .aborted) :
    ∃ t, exec i s = .next t ∧ s.Ended t g a f ((s.seg g).stopSeen.afterRun f none toCheck false) := by
  subst failure
  refine ⟨s.completeStop g a toCheck, ?_, ended_modSeg running (ownStop_eq _) rfl rfl⟩
  rw [completes, running_of hr, inRun_of running, if_pos (stopsWith_iff.mpr ⟨stop, drives, rfl⟩)]

/-- Settles O44: each command completes the stop, and the outcome counted is the failure recorded. -/
theorem stopsEndAttempts : Obligations.StopsEndAttempts := by
  intro g a place s hr running drives v k
  refine ⟨fun stop => ⟨fun ok => ?_, fun nack => ?_, fun nack => ?_⟩, fun aborted => ?_⟩
  · exact exec_stopped false rfl hr running drives ok (.inl stop)
  · exact exec_stopped false rfl hr running drives nack (.inl stop)
  · exact exec_stopped false rfl hr running drives nack (.inl stop)
  · exact exec_stopped true rfl hr running drives aborted (.inr rfl)

end Sys2Proof.Machine
end

section
/-! SUPPORT. What one byte, one loss of arbitration and one stretch timeout make of an attempt (R65 to R76, R88 to R94). -/
namespace Sys2Proof.Machine

variable {s : State} {g : SegId} {a : Attempt} {r : Slot}

/-- The length of a phase as the statements write it (R69, R71, R72). -/
theorem phaseLength_eq (r : Slot) (ph : Phase) :
    r.phaseLength ph = if ph = .read then r.readLength.getD 0 else (r.phaseBytes ph).length := by
  cases ph <;> rfl

theorem advance_eq (a : Attempt) (r : Slot) : a.advance r =
    if a.bytePos + 1 < (if a.phase = .read then r.readLength.getD 0 else (r.phaseBytes a.phase).length) then
      { a with bytePos := a.bytePos + 1 }
    else a.pass (r.nextPhase a.phase) := by
  rw [Attempt.advance, phaseLength_eq]

/-- A byte that is over shows that the start before it was made (log entry 11). -/
theorem inByte_eq (opened : a.timing ≠ none) :
    a.inByte r = if a.phase = .start ∨ a.phase = .restart then a.pass (r.nextPhase a.phase) else a := by
  unfold Attempt.inByte
  refine if_congr ?_ rfl rfl
  have timed : a.timing.isSome = true := Option.isSome_iff_ne_none.mpr opened
  simp only [Attempt.made, timed, Bool.or_eq_true, Bool.and_eq_true, decide_eq_true_eq]
  tauto

/-- Only a phase that sends bytes has bytes to send (R68, R69, R71). -/
theorem phaseBytes_of_not_sends {ph : Phase} (h : ph.sends = false) : r.phaseBytes ph = [] := by
  cases ph with
  | start | restart | read | stop => rfl
  | address | subAddress | write | addressRead => cases h

/-- A sent 1 was read low in some data bit (R65, R88). -/
theorem contradicted_iff_sent (levels : Byte) : a.contradicted r levels = true ↔
    ∃ k < 8, ((r.phaseBytes a.phase)[a.bytePos]?.getD 0).getMsbD k = true ∧ levels.getLsbD k = false := by
  rw [contradicted_iff, sentByte_eq]
  refine ⟨And.right, fun sent => ⟨?_, sent⟩⟩
  by_contra silent
  obtain ⟨k, _, bit, _⟩ := sent
  simp [phaseBytes_of_not_sends (Bool.eq_false_iff.mpr silent)] at bit

/-- The last byte of READ (R66, R72). -/
theorem lastRead_iff : a.lastRead r = true ↔ r.readLength.getD 0 ≤ a.bytePos + 1 := decide_eq_true_iff

/-- A byte read is kept; the no-acknowledge of the last may be lost (R66, R72). -/
theorem afterByte_of_read {levels : Byte} {ninth : Bool} (h : a.phase = .read) : a.afterByte r levels ninth =
    if a.lastRead r && !ninth then (a.takeByte levels).lose else (a.takeByte levels).advance r := by
  have silent : a.contradicted r levels = false := by simp [Attempt.contradicted, h, Phase.sends]
  rw [Attempt.afterByte, silent, if_neg Bool.false_ne_true, h]
  rfl

/-- The loss of the no-acknowledge is one in READ, with the byte read (R72). -/
theorem takeByte_lose {levels : Byte} (h : a.phase = .read) : (a.takeByte levels).lose =
    { a.takeByte levels with failure := some ⟨.arbitrationLost, .readData⟩, following := true } := by
  simp only [Attempt.lose, Attempt.takeByte, h, Phase.place]

/-- The engine drives the acknowledge bit of a byte it reads, but not of the last (R66). -/
theorem ninthLevel_of_not_read (ninth : Bool) (h : a.phase ≠ .read) : a.ninthLevel r ninth = ninth := by
  simp [Attempt.ninthLevel, Attempt.drivesData, h]

theorem ninthLevel_of_last (ninth : Bool) (last : a.lastRead r = true) : a.ninthLevel r ninth = ninth := by
  simp [Attempt.ninthLevel, Attempt.drivesData, last]

theorem ninthLevel_of_acknowledged (ninth : Bool) (h : a.phase = .read) (more : a.lastRead r = false)
    (drives : a.following = false) : a.ninthLevel r ninth = false := by
  simp [Attempt.ninthLevel, Attempt.drivesData, h, more, drives]

/-- The acknowledge bit of a byte meets a running attempt (R65, R66, R89). -/
theorem exec_acknowledgeBitRead (data : Byte) (ninth : Bool) (hr : s.resetn = true) (running : (s.seg g).engine = .run a) :
    exec (.acknowledgeBitRead g data ninth) s = .next
      (if a.failure = none ∧ a.timing.isSome = true ∧ a.phase ≠ .stop then
        s.modSeg g fun v =>
          ({ v with engine := .run ((a.inByte (s.slot a.slot)).afterByte (s.slot a.slot) data ninth) } : Seg).seeLow false
            ((a.inByte (s.slot a.slot)).ninthLevel (s.slot a.slot) ninth)
      else s) := by
  change execAcknowledgeBitRead g data ninth s = _
  rw [execAcknowledgeBitRead, running_of hr, inRun_of running]

theorem acknowledge_becomes {data : Byte} {ninth sda : Bool} {b c : Attempt} (hr : s.resetn = true)
    (running : (s.seg g).engine = .run a) (whole : a.failure = none) (opened : a.timing ≠ none) (going : a.phase ≠ .stop)
    (byte : a.inByte (s.slot a.slot) = b) (level : b.ninthLevel (s.slot a.slot) ninth = sda)
    (after : b.afterByte (s.slot a.slot) data ninth = c) :
    ∃ t, exec (.acknowledgeBitRead g data ninth) s = .next t ∧ t = s.setSeg g (t.seg g) ∧
      (s.seg g).Becomes { (s.seg g).lowSeen false sda with engine := .run c } (t.seg g) := by
  have reads := exec_acknowledgeBitRead data ninth hr running
  rw [if_pos ⟨whole, Option.isSome_iff_ne_none.mpr opened, going⟩, byte, level, after] at reads
  refine exec_becomes reads ?_
  dsimp only
  rw [seeLow_eq]
  exact becomes_of_run (by rw [running]; rfl) (by rw [running]; rfl) rfl

/-- Settles O41: the byte stands in a phase of its own, whose acknowledge bit says what becomes of it. -/
theorem acknowledgeBitMovesTheAttempt : Obligations.AcknowledgeBitMovesTheAttempt := by
  intro g a data ninth s hr running
  refine ⟨fun cannot => ?_, fun whole opened going _ => ?_⟩
  · rw [exec_acknowledgeBitRead data ninth hr running, if_neg]
    rintro ⟨whole, opened, going⟩
    rcases cannot with failed | unopened | stop
    · exact failed whole
    · simp [unopened] at opened
    · exact going stop
  intro r moves b becomes next fails sent contradicted
  have byte : a.inByte r = b := inByte_eq opened
  have following : b.following = a.following := by
    simp only [b]; split <;> rfl
  have goes {sda : Bool} {c : Attempt} (level : b.ninthLevel r ninth = sda) (after : b.afterByte r data ninth = c) :
      becomes sda c := acknowledge_becomes hr running whole opened going byte level after
  have advances (c : Attempt) : c.advance r = next c := advance_eq c r
  have nacks (kind : FailKind) : b.nack kind = fails kind b.phase.place := rfl
  have lost : b.contradicted r data = true ↔ contradicted := contradicted_iff_sent data
  refine ⟨fun sends wrong => ?_, fun right => ⟨fun ph => ?_, fun ph => ?_, fun ph => ?_⟩,
    fun ph => ⟨fun more drives => ?_, fun last => ?_⟩⟩
  · exact goes (ninthLevel_of_not_read ninth sends) (if_pos (lost.mpr wrong))
  · refine goes (ninthLevel_of_not_read ninth ?_) ((if_neg (mt lost.mp right)).trans ?_)
    · rcases ph with ph | ph <;> rw [ph] <;> nofun
    · rcases ph with ph | ph <;> simp only [ph, nacks, advances, Phase.place]
  · refine goes (ninthLevel_of_not_read ninth (by rw [ph]; nofun)) ((if_neg (mt lost.mp right)).trans ?_)
    simp only [ph, nacks, advances, Phase.place]
  · refine goes (ninthLevel_of_not_read ninth (by rw [ph]; nofun)) ((if_neg (mt lost.mp right)).trans ?_)
    simp only [ph, nacks, advances, Phase.place]
  · have acknowledged : b.lastRead r = false := Bool.eq_false_iff.mpr (mt lastRead_iff.mp (not_le.mpr more))
    refine goes (ninthLevel_of_acknowledged ninth ph acknowledged (following.trans drives)) ?_
    rw [afterByte_of_read ph, acknowledged, Bool.false_and, if_neg Bool.false_ne_true]
    exact advances _
  · have final : b.lastRead r = true := lastRead_iff.mpr last
    refine goes (ninthLevel_of_last ninth final) ?_
    rw [afterByte_of_read ph, final, Bool.true_and, advances]
    cases ninth
    · exact takeByte_lose ph
    · rfl

/-! ## Arbitration lost (R88 to R90) -/

theorem exec_arbitrationLost (how : LossCause) (hr : s.resetn = true) (running : (s.seg g).engine = .run a) :
    exec (.arbitrationLost g how) s = .next
      (if a.following = false ∧ (a.past (s.slot a.slot)).canLose (s.slot a.slot) how = true then
        (s.modSeg g fun v => v.seeLoss how).loseArbitration g (a.past (s.slot a.slot)) how
      else s) := by
  change execArbitrationLost g how s = _
  rw [execArbitrationLost, running_of hr, inRun_of running]
  dsimp only
  rw [clockFalls_following, (clockFalls_keeps a _).2, clockFalls_eq]

theorem past_failure : (a.past r).failure = a.failure := by rw [← clockFalls_eq, clockFalls_failure]

theorem past_following : (a.past r).following = a.following := by rw [← clockFalls_eq, clockFalls_following]

theorem settle_past (f : Option Failure) : s.settle (a.past r) f = s.settle a f := by
  rw [← clockFalls_eq, settle_clockFalls]

/-- An attempt past a clock that falls ends as the attempt does, since the pool reads nothing of its phase (R77). -/
theorem endAttempt_past {first : Option Failure} {second : Option FailKind} {toCheck opens : Bool} :
    s.endAttempt g (a.past r) first second toCheck opens = s.endAttempt g a first second toCheck opens := by
  rw [State.endAttempt, settle_past, State.endAttempt]

/-- The lines as they are seen at a loss (R88). -/
def Seg.lossSeen (v : Seg) : LossCause → Seg
  | .dataLow _ _ => v.lowSeen true false
  | .clockFell => v.lowSeen false v.sda

theorem seeLoss_eq (v : Seg) (how : LossCause) : v.seeLoss how = v.lossSeen how := by
  cases how <;> exact seeLow_eq ..

/-- Where a loss can be seen: at a repeated start, at a stop, and in a byte in a bit that the engine compares (R65, R66,
R88). -/
def Attempt.SeesLoss (a : Attempt) (r : Slot) (how : LossCause) : Prop :=
  a.phase = .restart ∨ a.phase = .stop ∨ ∃ (bit : Fin 9) (data : Byte), how = .dataLow bit data ∧
    ((a.phase = .address ∨ a.phase = .addressRead ∨ a.phase = .subAddress ∨ a.phase = .write) ∧ bit.val < 8 ∧
        ((r.phaseBytes a.phase)[a.bytePos]?.getD 0).getMsbD bit.val = true ∨
      a.phase = .read ∧ bit.val = 8 ∧ r.readLength.getD 0 ≤ a.bytePos + 1)

theorem sends_iff {ph : Phase} :
    ph.sends = true ↔ ph = .address ∨ ph = .addressRead ∨ ph = .subAddress ∨ ph = .write := by cases ph <;> decide

theorem compares_iff {bit : Fin 9} : a.compares r bit = true ↔
    (a.phase = .address ∨ a.phase = .addressRead ∨ a.phase = .subAddress ∨ a.phase = .write) ∧ bit.val < 8 ∧
        ((r.phaseBytes a.phase)[a.bytePos]?.getD 0).getMsbD bit.val = true ∨
      a.phase = .read ∧ bit.val = 8 ∧ r.readLength.getD 0 ≤ a.bytePos + 1 := by
  simp only [Attempt.compares, lastRead_iff, wireBit, sentByte_eq, Bool.or_eq_true, Bool.and_eq_true, decide_eq_true_eq,
    sends_iff, and_assoc]

/-- The model's judgement of a loss, phase by phase: START sends nothing that could be compared (log entry 12). -/
theorem canLose_iff {how : LossCause} : a.canLose r how = true ↔ a.SeesLoss r how := by
  have bits : a.SeesLoss r how ↔ a.phase = .restart ∨ a.phase = .stop ∨
      ∃ (bit : Fin 9) (data : Byte), how = .dataLow bit data ∧ a.compares r bit = true := by
    simp only [Attempt.SeesLoss, compares_iff]
  rw [bits]
  cases how with
  | clockFell => cases h : a.phase <;> simp [Attempt.canLose, h]
  | dataLow bit data =>
    have silent (start : a.phase = .start) : a.compares r bit = false := by simp [Attempt.compares, start, Phase.sends]
    cases h : a.phase <;> simp [Attempt.canLose, h, silent]

/-- What is read of a byte whose no-acknowledge is lost (R72). -/
def Attempt.lossRead (a : Attempt) : LossCause → List Byte
  | .dataLow _ data => if a.phase = .read then [byteRead data] else []
  | .clockFell => []

/-- Within a byte the engine follows, with what it has read by then (R72, R89). -/
theorem readBy_lose {how : LossCause} (seen : a.SeesLoss r how) (notRestart : a.phase ≠ .restart)
    (notStop : a.phase ≠ .stop) : (a.readBy how).lose = { a with
      readData := a.readData ++ a.lossRead how
      failure := some ⟨.arbitrationLost, a.phase.place⟩
      following := true } := by
  rw [readBy_eq]
  cases how with
  | clockFell => rfl
  | dataLow bit data =>
    have ninth (ph : a.phase = .read) : bit.val = 8 := by
      rcases seen with h | h | ⟨bit', data', same, ⟨h, _⟩ | ⟨_, h, _⟩⟩
      · exact absurd h notRestart
      · exact absurd h notStop
      · simp [ph] at h
      · cases same; exact h
    have kept : (a.phase = .read ∧ bit.val = 8) = (a.phase = .read) := by simpa using ninth
    simp only [kept]
    rfl

theorem endFollowing_lose : s.endFollowing g a.lose =
    s.endAttempt g a (some ⟨.arbitrationLost, a.phase.place⟩) none false false := rfl

/-- Settles O42: past a clock that falls, the engine is in a byte, at a condition, or at the stop of a failure. -/
theorem arbitrationLostFollowsOrEnds : Obligations.ArbitrationLostFollowsOrEnds := by
  intro g a how s hr running r b v read seen
  have loses := exec_arbitrationLost how hr running
  have lines : (s.seg g).seeLoss how = v := seeLoss_eq _ _
  have engine : v.engine = (s.seg g).engine := by simp only [v]; split <;> rfl
  have list : v.list = (s.seg g).list := by simp only [v]; split <;> rfl
  have ended (first : Option Failure) (second : Option FailKind) (toCheck : Bool) :
      s.Ended ((s.modSeg g fun v => v.seeLoss how).endAttempt g a first second toCheck false) g a first
        { (if toCheck then v.checking else { v with engine := .idle }) with
          counters := v.counters.countEnd first second } := by
    have := ended_modSeg (a := a) (f := fun v => v.seeLoss how) (first := first) (second := second) (toCheck := toCheck)
      (opens := false) running lines engine list
    rw [Seg.afterRun, Bool.or_false] at this
    cases toCheck <;> exact this
  refine ⟨fun cannot => loses.trans (congrArg _ (if_neg ?_)),
    fun drives sees => ⟨_, loses.trans (congrArg _ (if_pos ⟨drives, canLose_iff.mpr sees⟩)),
      fun whole notRestart notStop => ?_, fun whole condition => ?_, fun f failed => ?_⟩⟩
  · rintro ⟨drives, sees⟩
    exact cannot.elim (fun follows => by rw [drives] at follows; cases follows) fun unseen => unseen (canLose_iff.mp sees)
  · rw [State.loseArbitration, past_failure, whole]
    dsimp only
    rw [if_neg (not_or.mpr ⟨notRestart, notStop⟩), readBy_lose sees notRestart notStop]
    exact setAttempt_becomes (f := fun v => v.seeLoss how) running lines engine
  · rw [State.loseArbitration, past_failure, whole]
    dsimp only
    have place : b.phase.place = .stopOrRestart := by rcases condition with h | h <;> rw [h] <;> rfl
    rw [if_pos condition, endFollowing_lose, place, endAttempt_past]
    exact ended (some ⟨.arbitrationLost, .stopOrRestart⟩) none false
  · rw [State.loseArbitration, past_failure, failed]
    dsimp only
    rw [endAttempt_past]
    exact ended (some f) (some .arbitrationLost) true

/-! ## A stretch timeout (R76, R94, R100) -/

theorem exec_stretchTimeout (hr : s.resetn = true) (running : (s.seg g).engine = .run a) :
    exec (.stretchTimeout g) s = .next
      (if a.timing = none then s
      else (s.modSeg g fun v => v.seeLow false v.sda).stretchOut g (a.past (s.slot a.slot))) := by
  change execStretchTimeout g s = _
  rw [execStretchTimeout, running_of hr, inRun_of running, clockFalls_eq]

/-- A stretch timeout is the first failure, in the phase that the low clock leaves, or the second beside the first (R76,
R94). -/
theorem stretchOut_past : s.stretchOut g (a.past r) = match a.failure with
    | none => s.endAttempt g a (some ⟨.stretchTimeout, (a.past r).phase.place⟩) none true true
    | some f => s.endAttempt g a (some f) (some .stretchTimeout) true (!a.following) := by
  rw [State.stretchOut, past_failure, past_following]
  cases a.failure <;> exact endAttempt_past

/-- CHECK entered out of RUN with the clock low begins with its clock-held timer alone (R100, R101). -/
theorem checkTimers_of_low {v w x : Seg} (running : v.engine.isRun = true) (becomes : v.Becomes w x)
    (check : w.engine = .check false) (low : w.scl = false) :
    x.quietTimer = none ∧ x.dataHeldTimer = none ∧ x.clockHeldTimer = some w.inForce.stretchTimeout := by
  obtain ⟨agrees, quiet, dataHeld, clockHeld, _⟩ := becomes
  have x_check : x.engine = .check false := by rw [agrees]; exact check
  have x_low : x.scl = false := by rw [agrees]; exact low
  have x_timing : x.inForce = w.inForce := by rw [agrees]
  have v_runs : v.engine ≠ .check false := fun e => by rw [e] at running; cases running
  simp [quiet, dataHeld, clockHeld, x_check, x_low, x_timing, v_runs]

theorem bump_toNat (n : Count) : (bump n).toNat = min 65535 (n.toNat + 1) := by
  unfold bump
  split
  · next full => rw [full]; rfl
  · next room =>
    have : n.toNat ≠ 65535 := fun e => room (BitVec.eq_of_toNat_eq e)
    bv_omega

/-- Settles O45: the low clock is seen, and the attempt ends with the timeout as its first or its second failure. -/
theorem stretchTimeoutEndsTheAttempt : Obligations.StretchTimeoutEndsTheAttempt := by
  intro g a s hr running v k place
  have out := exec_stretchTimeout hr running
  have ended (first : Option Failure) (second : Option FailKind) (opens : Bool) :
      s.Ended ((s.modSeg g fun v => v.seeLow false v.sda).endAttempt g a first second true opens) g a first
        (v.afterRun first second true opens) :=
    ended_modSeg (f := fun v => v.seeLow false v.sda) running (seeLow_eq ..) rfl rfl
  refine ⟨fun unopened => out.trans (congrArg _ (if_pos unopened)), fun opened => ?_,
    fun c => ⟨rfl, rfl, rfl, rfl, rfl, bump_toNat⟩⟩
  rw [if_neg opened, stretchOut_past] at out
  refine ⟨_, out, ?_⟩
  have timers {t : State} {first : Option Failure} {second : Option FailKind} {opens : Bool}
      (h : s.Ended t g a first (v.afterRun first second true opens)) : (t.seg g).quietTimer = none ∧
        (t.seg g).dataHeldTimer = none ∧ (t.seg g).clockHeldTimer = some v.setup.timing.stretchTimeout :=
    checkTimers_of_low (by rw [running]; rfl) h.2 rfl rfl
  cases failure : a.failure with
  | none =>
    have h := ended (some ⟨.stretchTimeout, place⟩) none true
    obtain ⟨quiet, dataHeld, clockHeld⟩ := timers h
    refine ⟨quiet, dataHeld, clockHeld, fun _ => ?_, nofun⟩
    rwa [Seg.afterRun, Bool.or_true] at h
  | some f =>
    have h := ended (some f) (some .stretchTimeout) (!a.following)
    obtain ⟨quiet, dataHeld, clockHeld⟩ := timers h
    refine ⟨quiet, dataHeld, clockHeld, nofun, fun f' same => ?_⟩
    cases same
    exact h

end Sys2Proof.Machine
end

section
/-! SUPPORT. What the bus monitor sees with the engine in any state (R84, R85, R87, R89, R96, R101). -/
namespace Sys2Proof.Machine

variable {s : State} {g : SegId} {a : Attempt}

/-! ## What a running attempt makes of the wire -/

theorem engine_cases (n : Engine) : n.isRun = false ∨ ∃ a, n = .run a := by cases n <;> simp [Engine.isRun]

/-- Only an attempt that has not opened loses to a monitor that leaves FREE (R87). -/
theorem meetStart_of_opened (opened : ∀ a, (s.seg g).engine = .run a → a.timing ≠ none) : s.meetStart g = s := by
  unfold State.meetStart
  split
  · next a running => exact if_neg fun h => opened a running h.1
  · rfl

/-- Only an attempt that follows ends at a start or a stop seen (R89). -/
theorem meetCondition_of_driving (driving : ∀ a, (s.seg g).engine = .run a → a.following = false) :
    s.meetCondition g = s := by
  unfold State.meetCondition
  split
  · next a running => exact if_neg (by rw [driving a running]; exact Bool.false_ne_true)
  · rfl

/-- A start seen is no repeated start of the engine's own outside RESTART (R63). -/
theorem meetRestart_of_other (other : ∀ a, (s.seg g).engine = .run a → a.phase ≠ .restart ∨ a.failure ≠ none) :
    s.meetRestart g = s := by
  rcases engine_cases (s.seg g).engine with idle | ⟨a, running⟩
  · exact inRun_of_not idle
  · exact (inRun_of running).trans (if_neg fun h => (other a running).elim (· h.1) (· h.2))

theorem meetRestart_of_restart (running : (s.seg g).engine = .run a) (restart : a.phase = .restart)
    (whole : a.failure = none) : s.meetRestart g = s.setAttempt g { a with restarted := true } :=
  (inRun_of running).trans (if_pos ⟨restart, whole⟩)

/-! ## The commands of the monitor -/

/-- The lines seen anew by a command that changes no timer of its own. -/
theorem modSeg_becomes {i : Instr} {f : Seg → Seg} {w : Seg} (seen : exec i s = .next (s.modSeg g f))
    (sees : f (s.seg g) = w) (hq : w.quietTimer = (s.seg g).quietTimer) (hd : w.dataHeldTimer = (s.seg g).dataHeldTimer)
    (hc : w.clockHeldTimer = (s.seg g).clockHeldTimer) (hb : w.busyLongTimer = (s.seg g).busyLongTimer) :
    ∃ t, exec i s = .next t ∧ t = s.setSeg g (t.seg g) ∧ (s.seg g).Becomes w (t.seg g) := by
  subst sees
  exact exec_becomes seen (retime_becomes _ _ hq hd hc hb)

/-- What the lines show leaves the engine as it was. -/
theorem engine_modSeg {f : Seg → Seg} {w : Seg} (sees : f (s.seg g) = w) (engine : w.engine = (s.seg g).engine) :
    ((s.modSeg g f).seg g).engine = (s.seg g).engine := by
  rw [seg_modSeg, retime_engine, sees, engine]

theorem exec_monitorStartSeen (hr : s.resetn = true) (opened : ∀ a, (s.seg g).engine = .run a → a.timing ≠ none)
    (driving : ∀ a, (s.seg g).engine = .run a → a.following = false) :
    exec (.monitorStartSeen g) s = .next ((s.modSeg g fun v => v.monitorStart.see true false).meetRestart g) := by
  have engine := engine_modSeg (f := fun v => v.monitorStart.see true false) (start_eq (s.seg g)) rfl
  change execMonitorStartSeen g s = _
  rw [execMonitorStartSeen, running_of hr, meetStart_of_opened (by rwa [engine]), meetCondition_of_driving (by rwa [engine])]

theorem exec_monitorStopSeen (hr : s.resetn = true) (driving : ∀ a, (s.seg g).engine = .run a → a.following = false)
    (met : (s.seg g).monitor ≠ .free) :
    exec (.monitorStopSeen g) s = .next (s.modSeg g fun v => (v.see true true).monitorStop) := by
  have engine := engine_modSeg (f := fun v => (v.see true true).monitorStop) (stop_eq (s.seg g) met) rfl
  change execMonitorStopSeen g s = _
  rw [execMonitorStopSeen, running_of hr, if_neg met, meetCondition_of_driving (by rwa [engine])]

/-- The lines seen by a LINE_LOW with the engine past its opening start (R84, R87). -/
theorem exec_lineLow {l : Levels} (hr : s.resetn = true) (opened : ∀ a, (s.seg g).engine = .run a → a.timing ≠ none)
    (low : ¬(l.clock = true ∧ l.data = true)) : exec (.lineLow g l) s = .next
      (if l.clock then s.modSeg g fun v => v.seeLow l.clock l.data
      else (s.modSeg g fun v => v.seeLow l.clock l.data).meetClockLow g (s.seg g).scl) := by
  have engine := engine_modSeg (f := fun v => v.seeLow l.clock l.data) (seeLow_eq (s.seg g) _ _) rfl
  change execLineLow g l s = _
  rw [execLineLow, running_of hr, if_neg low, meetStart_of_opened (by rwa [engine])]

/-- A running attempt that sees the clock low (R62, R63, R68, R80). -/
theorem lineLow_becomes {data : Bool} {b : Attempt} (hr : s.resetn = true) (running : (s.seg g).engine = .run a)
    (opened : ∀ a, (s.seg g).engine = .run a → a.timing ≠ none) (sees : a.seesLow (s.slot a.slot) (s.seg g).scl = b) :
    ∃ t, exec (.lineLow g ⟨false, data⟩) s = .next t ∧ t = s.setSeg g (t.seg g) ∧
      (s.seg g).Becomes { (s.seg g).lowSeen false data with engine := .run b } (t.seg g) := by
  have seen := exec_lineLow (l := ⟨false, data⟩) hr opened (by simp)
  have engine := engine_modSeg (f := fun v => v.seeLow false data) (seeLow_eq (s.seg g) _ _) rfl
  rw [if_neg Bool.false_ne_true, State.meetClockLow, inRun_of (engine.trans running), slot_modSeg, sees] at seen
  exact ⟨_, seen, setAttempt_becomes (f := fun v => v.seeLow false data) running (seeLow_eq _ _ _) rfl⟩

theorem seesLow_of_falling {r : Slot} {fell : Bool} (falls : fell = true ∨ ¬a.failure.map Failure.kind = some .aborted) :
    a.seesLow r fell = a.past r := by
  rw [seesLow_eq, if_neg]
  rintro ⟨aborted, _, low⟩
  exact falls.elim (fun high => by rw [low] at high; cases high) (· aborted)

/-- An abort that follows a clock which has stayed low goes on as it was, and so does one at its stop (R80). -/
theorem seesLow_of_aborted {r : Slot} (aborted : a.failure.map Failure.kind = some .aborted) : a.seesLow r false = a := by
  rw [seesLow_eq]
  by_cases stop : a.phase = .stop
  · simp [stop, Attempt.past]
  · exact if_pos ⟨aborted, stop, rfl⟩

/-- Both lines come to be seen high (R84, R85). -/
theorem high_eq (v : Seg) : (v.see true true).monitorHigh = { v with
    scl := true, sda := true
    busFreeTimer := if v.monitor = .settling ∧ v.busFreeTimer = none then some v.inForce.busFreeWait
                    else v.busFreeTimer } := by
  cases hm : v.monitor <;> cases hb : v.busFreeTimer <;> simp [Seg.see, Seg.monitorHigh, hm, hb]

/-- Settles O46: each command makes the monitor's move, and of a running attempt only what the table says. -/
theorem monitorFollowsTheWire : Obligations.MonitorFollowsTheWire := by
  intro g s hr v becomes opened driving
  have started := engine_modSeg (f := fun v => v.monitorStart.see true false) (start_eq v) rfl
  refine ⟨fun o d => ⟨fun other => ?_, fun a running restart whole => ?_⟩, fun free => ?_, fun met d => ?_,
    fun o data => ⟨?_, fun idle => ?_, fun a running => ⟨fun falls => ?_, fun low aborted => ?_⟩⟩, ?_, ?_,
    fun stopped => ?_, fun runs => ?_⟩
  · have seen := exec_monitorStartSeen hr o d
    rw [meetRestart_of_other (by rwa [started])] at seen
    exact modSeg_becomes seen (start_eq v) rfl rfl rfl rfl
  · have seen := exec_monitorStartSeen hr o d
    rw [meetRestart_of_restart (started.trans running) restart whole] at seen
    exact ⟨_, seen, setAttempt_becomes (f := fun v => v.monitorStart.see true false) running (start_eq v) rfl⟩
  · change execMonitorStopSeen g s = _
    rw [execMonitorStopSeen, running_of hr, if_pos free]
  · exact modSeg_becomes (exec_monitorStopSeen hr d met) (stop_eq v met) rfl rfl rfl rfl
  · exact modSeg_becomes (f := fun v => v.seeLow true false) (exec_lineLow hr o (by simp)) (seeLow_eq ..) rfl rfl rfl rfl
  · have seen := exec_lineLow (l := ⟨false, data⟩) hr o (by simp)
    have engine := engine_modSeg (f := fun v => v.seeLow false data) (seeLow_eq v _ _) rfl
    rw [if_neg Bool.false_ne_true, State.meetClockLow, inRun_of_not (by rwa [engine])] at seen
    exact modSeg_becomes seen (seeLow_eq ..) rfl rfl rfl rfl
  · exact lineLow_becomes hr running o (seesLow_of_falling falls)
  · have same : v.lowSeen false data = { v.lowSeen false data with engine := .run a } := by rw [← running]; rfl
    rw [same]
    exact lineLow_becomes hr running o (by rw [low]; exact seesLow_of_aborted aborted)
  · change execLineLow g ⟨true, true⟩ s = _
    rw [execLineLow, running_of hr, if_pos ⟨rfl, rfl⟩]
  · have seen : exec (.bothLinesHigh g) s = .next (s.modSeg g fun v => (v.see true true).monitorHigh) := by
      change execBothLinesHigh g s = _
      rw [execBothLinesHigh, running_of hr]
    exact modSeg_becomes seen (high_eq v) rfl rfl rfl rfl
  · change execBusFreeTimerExpiry g s = _
    rw [execBusFreeTimerExpiry, running_of hr, if_neg (by rw [stopped]; exact Bool.false_ne_true)]
  · have expires : exec (.busFreeTimerExpiry g) s =
        .next (s.modSeg g fun v => { v with busFreeTimer := none, monitor := .free }) := by
      change execBusFreeTimerExpiry g s = _
      rw [execBusFreeTimerExpiry, running_of hr, if_pos runs]
    exact modSeg_becomes expires rfl rfl rfl rfl rfl

end Sys2Proof.Machine
end

section
/-! SUPPORT. SEG_RESET in RUN (R80, R81, R183). -/
namespace Sys2Proof.Machine

variable {s : State} {p : PortId} {e : StoreIx} {tag : Byte} {g : SegId} {a : Attempt}

/-- An operation whose only effect at its port is its MREPLY (R154, R173). -/
theorem mreply_reserved {op : Byte} {st : MgmtStatus} {reply : List Byte} (served : (s.port p).Served) :
    (s.reserved p e).mreply p e tag op st reply = s.replied p e tag op st reply := by
  have reserved : ((s.reserved p e).port p).Served := by rw [State.reserved, port_setPort]; exact served
  rw [mreply_eq_sends reserved, State.replied, State.sends, State.reserved, State.sends, State.heard]
  simp only [port_setPort, setPort_setPort, Port.sends_setEntry]

theorem seg_replied {op : Byte} {st : MgmtStatus} {reply : List Byte} (k : SegId) :
    (s.replied p e tag op st reply).seg k = s.seg k := by
  rw [State.replied, State.sends, State.heard, seg_setPort, seg_setPort]

/-- A SEG_RESET that finds its segment in RUN replies, and then meets the attempt (R183). -/
theorem exec_segReset_run {gb : Byte} (named : gb = if g = .A then 0 else 1) (h : s.Manages p tag [opSegReset, gb] e)
    (running : (s.seg g).engine = .run a) :
    exec (.segReset p tag [gb]) s = .next ((s.replied p e tag opSegReset .done []).resetRun g a) := by
  have seg : (s.reserved p e).seg g = s.seg g := seg_setPort ..
  show execSegReset p tag [gb] s = _
  rw [execSegReset, running_of h.arrives.running, completeMgmt_of_manages h]
  show Host.Outcome.next ((s.reserved p e).segReset p e tag [gb]) = _
  simp only [State.segReset, segOf_iff.mpr named, seg, running, mreply_reserved h.arrives.served]

/-- An attempt that a SEG_RESET ends at once leaves RUN for CHECK (R81). -/
theorem ended_check {f : Failure} {opens : Bool} (running : (s.seg g).engine = .run a) :
    let t := s.endAttempt g a (some f) none true opens
    t = (s.settle a (some f)).setSeg g (t.seg g) ∧
      (s.seg g).Becomes { ((s.settle a (some f)).seg g).checking with
        counters := (s.seg g).counters.countFail f.kind
        stopOwed := (s.seg g).stopOwed || opens } (t.seg g) := by
  rw [seg_settle]
  exact ended_now running

/-- An attempt with no failure recorded is aborted (R68, R80). -/
theorem resetRun_of_whole (opened : a.timing ≠ none) (whole : a.failure = none) :
    s.resetRun g a = s.abort g { a with failure := some ⟨.aborted, a.phase.place⟩ } := by
  rw [State.resetRun, if_neg opened, whole]

/-- Settles O33: the reply leaves the segment as it was, and its attempt is aborted or ended there. -/
theorem segResetAbortsARunningAttempt : Obligations.SegResetAbortsARunningAttempt := by
  intro p tag gb g a e s named h running v done ended aborted
  have seg : done.seg g = v := seg_replied g
  have run : (done.seg g).engine = .run a := by rw [seg]; exact running
  have ends (f : Failure) (left : Bool) : ended f left (done.endAttempt g a (some f) none true left) := by
    have h := ended_check (f := f) (opens := left) run
    rwa [seg] at h
  have replies : exec (.segReset p tag [gb]) s = .next (done.resetRun g a) := exec_segReset_run named h running
  have aborts (opened : a.timing ≠ none) (whole : a.failure = none) : done.resetRun g a = done.abort g aborted :=
    resetRun_of_whole opened whole
  refine ⟨_, replies, fun unopened => ?_, fun opened whole => ⟨fun high => ?_, fun low going => ?_⟩,
    fun f opened failed => ?_⟩
  · rw [State.resetRun, if_pos unopened]
    exact ends _ _
  · rw [aborts opened whole, abort_of_high aborted (by rwa [seg]), modSeg_eq, seg, seg_setSeg]
    exact ⟨rfl, retime_becomes _ _ rfl rfl rfl rfl⟩
  · have kept : ({ done with freeCount := done.freeCount + 1 } : State).seg g = v := by rw [← seg]; cases g <;> rfl
    rw [aborts opened whole, abort_of_low aborted (by rwa [seg]) going, modSeg_eq, kept, seg_setSeg]
    exact ⟨rfl, retime_becomes _ _ rfl rfl rfl rfl⟩
  · rw [State.resetRun, if_neg opened, failed]
    exact ends _ _

end Sys2Proof.Machine
end

section
/-! SUPPORT. The phases of an attempt with their bytes (R68 to R71), and what an engine drives (R60, R62 to R66, R80, R89,
R102, R105, R106). -/
namespace Sys2Proof.Machine

variable {s : State} {g : SegId} {a : Attempt} {r : Slot} {bit : Fin 9} {part : Part}

/-! ## The order of the phases (R70) -/

/-- No phase stands twice in a sequence (R70). -/
theorem nodup_phases (r : Slot) : r.phases.Nodup := by
  by_cases sub : r.subAddress.isSome = true <;> by_cases form : r.snapshot.form = .tenBit <;>
    by_cases data : r.writeData = [] <;> cases operation : r.operation <;>
    simp [Slot.phases, Slot.middlePhases, sub, form, data, operation]

theorem phaseAfter_of_split {x y : Phase} {before after : List Phase} (first : x ∉ before) :
    phaseAfter x (before ++ x :: y :: after) = y := by
  induction before with
  | nil => simp [phaseAfter]
  | cons z rest ih =>
    obtain ⟨other, later⟩ := not_or.mp (mt List.mem_cons.mpr first)
    simp [phaseAfter, Ne.symm other, ih later]

/-- The phase that follows another in the sequence is the next one (R68, R70). -/
theorem nextPhase_of_split {x y : Phase} {before after : List Phase} (h : r.phases = before ++ x :: y :: after) :
    r.nextPhase x = y := by
  have once := nodup_phases r
  rw [h] at once
  rw [Slot.nextPhase, h]
  exact phaseAfter_of_split fun twice => (List.nodup_append.mp once).2.2 x twice x (List.mem_cons_self ..) rfl

/-! ## What an engine drives -/

theorem drivesData_of_following (h : a.following = true) : a.drivesData r bit = false := by simp [Attempt.drivesData, h]

/-- A sent bit drives the line low for a 0, and releases it for a 1 and for the acknowledge bit (R65). -/
theorem drivesData_of_sends (sends : a.phase.sends = true) (drives : a.following = false) : a.drivesData r bit = true ↔
    bit.val < 8 ∧ ((r.phaseBytes a.phase)[a.bytePos]?.getD 0).getMsbD bit.val = false := by
  have notRead : a.phase ≠ .read := fun e => by rw [e] at sends; cases sends
  simp [Attempt.drivesData, drives, sends, notRead, wireBit, sentByte_eq]

/-- A bit read drives the line low only to acknowledge a byte that is not the last (R66). -/
theorem drivesData_of_read (read : a.phase = .read) (drives : a.following = false) : a.drivesData r bit = true ↔
    bit.val = 8 ∧ a.bytePos + 1 < r.readLength.getD 0 := by
  have silent : Phase.read.sends = false := rfl
  have more : a.lastRead r = false ↔ a.bytePos + 1 < r.readLength.getD 0 := by
    rw [← Bool.not_eq_true, lastRead_iff, not_le]
  simp [Attempt.drivesData, drives, silent, read, more]

/-- In the phases of bytes the clock runs, and the bit says what the data line does (R65, R66). -/
theorem phaseDrive_of_byte (start : a.phase ≠ .start) (restart : a.phase ≠ .restart) (stop : a.phase ≠ .stop) :
    a.phaseDrive r bit part = ⟨decide (part = .low), a.drivesData r bit⟩ := by
  cases h : a.phase with
  | start => exact absurd h start
  | restart => exact absurd h restart
  | stop => exact absurd h stop
  | address | subAddress | write | addressRead | read => simp only [Attempt.phaseDrive, h]

theorem byte_of_sends {ph : Phase} (sends : ph.sends = true) : ph ≠ .start ∧ ph ≠ .restart ∧ ph ≠ .stop := by
  refine ⟨?_, ?_, ?_⟩ <;> rintro rfl <;> cases sends

theorem drive_run (hr : s.resetn = true) (running : (s.seg g).engine = .run a) :
    s.drive g bit part = a.drive (s.slot a.slot) bit part := by
  rw [State.drive, if_pos hr, running]

theorem drive_low (hr : s.resetn = false) : s.drive g bit part = .released := by
  rw [State.drive, hr, if_neg Bool.false_ne_true]

/-! ## The bytes of the phases (R69, R71) -/

theorem phaseBytes_sevenBit (form : r.snapshot.form = .sevenBit) :
    r.phaseBytes .address = [byte (2 * r.snapshot.address)] ∧
      r.phaseBytes .addressRead = [byte (2 * r.snapshot.address + 1)] := by
  simp [Slot.phaseBytes, addressBytes, form, Nat.mul_comm]

theorem form_tenBit (form : r.snapshot.form ≠ .sevenBit) : r.snapshot.form = .tenBit := by
  cases h : r.snapshot.form with
  | sevenBit => exact absurd h form
  | tenBit => rfl

theorem phaseBytes_tenBit (form : r.snapshot.form ≠ .sevenBit) :
    r.phaseBytes .address = [byte (0xF0 + r.snapshot.address / 256 * 2), byte (r.snapshot.address % 256)] ∧
      r.phaseBytes .addressRead = [byte (0xF0 + r.snapshot.address / 256 * 2 + 1)] := by
  simp [Slot.phaseBytes, addressBytes, form_tenBit form]

/-- Settles O39: what is driven goes by the engine's state and the attempt's phase, the sequences by the operation. -/
theorem phasesAndBytesOfAnAttempt : Obligations.PhasesAndBytesOfAnAttempt := by
  refine ⟨byteRead_bit, fun s g bit part => ?_, fun r => ?_⟩
  · intro d released stop low
    have stopped : Drive.stop part = stop := by cases part <;> rfl
    refine ⟨drive_low, fun hr => ⟨fun silent => ?_, fun stops => ?_, fun pulse => ?_, fun a running => ?_⟩⟩
    · rcases silent with h | h | h | h <;> simp only [d, State.drive, hr, h] <;> rfl
    · rcases stops with h | h <;> simp only [d, State.drive, hr, h, ← stopped] <;> rfl
    · simp only [d, State.drive, hr, pulse]; rfl
    · intro r turns
      have drives : d = a.drive r bit part := drive_run hr running
      rw [drives, drive_eq]
      refine ⟨fun aborts => (if_pos aborts).trans stopped, fun goes => ?_⟩
      rw [if_neg goes]
      refine ⟨fun ph => ?_, fun ph => ?_, fun ph => ?_, fun start restart stop => ?_, fun follows start restart => ?_,
        fun drives => ⟨fun sends => ?_, fun read => ?_⟩⟩
      · simp [Attempt.phaseDrive, Attempt.made, ph]
      · simp [Attempt.phaseDrive, Attempt.made, ph, low]
      · rw [← stopped]; simp [Attempt.phaseDrive, ph, released, Drive.released]
      · rw [phaseDrive_of_byte start restart stop]
      · by_cases stop : a.phase = .stop
        · simp [Attempt.phaseDrive, stop, follows, Drive.released]
        · rw [phaseDrive_of_byte start restart stop]
          exact drivesData_of_following follows
      · have sending : a.phase.sends = true := sends_iff.mpr (by tauto)
        obtain ⟨start, restart, stop⟩ := byte_of_sends sending
        rw [phaseDrive_of_byte start restart stop]
        exact drivesData_of_sends sending drives
      · rw [phaseDrive_of_byte (by rw [read]; nofun) (by rw [read]; nofun) (by rw [read]; nofun)]
        exact drivesData_of_read read drives
  · intro absent sevenBit address
    have missing (sub : absent) : r.subAddress.isSome = false :=
      Option.isSome_eq_false_iff.mpr (Option.isNone_iff_eq_none.mpr sub)
    have present (sub : ¬absent) : r.subAddress.isSome = true := Option.isSome_iff_ne_none.mpr sub
    refine ⟨fun op => ⟨fun sub => ?_, fun sub form => ?_, fun sub form => ?_⟩,
      fun op => ⟨fun sub => ?_, fun sub => ?_⟩,
      fun op => ⟨fun sub data => ?_, fun sub data => ?_, fun sub data => ?_, fun sub data => ?_⟩, fun op => ?_,
      fun _ _ _ _ => nextPhase_of_split, phaseBytes_sevenBit, phaseBytes_tenBit,
      fun n sub => ⟨fun width => ?_, fun width => ?_⟩, rfl, rfl⟩
    · simp [Slot.phases, Slot.middlePhases, op, present sub]
    · simp [Slot.phases, Slot.middlePhases, op, missing sub, show r.snapshot.form = .sevenBit from form]
    · simp [Slot.phases, Slot.middlePhases, op, missing sub, form_tenBit form]
    · simp [Slot.phases, Slot.middlePhases, op, present sub]
    · simp [Slot.phases, Slot.middlePhases, op, missing sub]
    · simp [Slot.phases, Slot.middlePhases, op, present sub, data]
    · simp [Slot.phases, Slot.middlePhases, op, present sub, data]
    · simp [Slot.phases, Slot.middlePhases, op, missing sub, data]
    · simp [Slot.phases, Slot.middlePhases, op, missing sub, data]
    · simp [Slot.phases, Slot.middlePhases, op]
    · simp [Slot.phaseBytes, sub, subAddressBytes, width]
    · simp [Slot.phaseBytes, sub, subAddressBytes, width, bytes16]

end Sys2Proof.Machine
end

section
/-! SUPPORT. What the timers of the segments stand on (R83, R96, R101), and the operations that leave it. -/
namespace Sys2Proof.Machine

/-! ## The clocks of the part -/

/-- What the timers of a segment are fitted to, and the timers themselves (R83 to R85, R96, R101). -/
structure Clock where
  engine : Engine
  inForce : Timing
  monitor : Monitor
  scl : Bool
  sda : Bool
  busFreeTimer : Option Nat
  quietTimer : Option Nat
  dataHeldTimer : Option Nat
  clockHeldTimer : Option Nat
  busyLongTimer : Option Nat

/-- The clock of a segment. -/
def Seg.clock (v : Seg) : Clock where
  engine := v.engine
  inForce := v.inForce
  monitor := v.monitor
  scl := v.scl
  sda := v.sda
  busFreeTimer := v.busFreeTimer
  quietTimer := v.quietTimer
  dataHeldTimer := v.dataHeldTimer
  clockHeldTimer := v.clockHeldTimer
  busyLongTimer := v.busyLongTimer

/-- The clocks of both segments, with RESETN, which says whether they run (R115). -/
structure Clocks where
  resetn : Bool
  a : Clock
  b : Clock

/-- The clocks of a state. -/
def State.clocks (s : State) : Clocks := ⟨s.resetn, s.segA.clock, s.segB.clock⟩

theorem Seg.TimersFit.of_clock {v w : Seg} (h : v.TimersFit) (e : w.clock = v.clock) : w.TimersFit := by
  have engine : w.engine = v.engine := congrArg Clock.engine e
  have inForce : w.inForce = v.inForce := congrArg Clock.inForce e
  have monitor : w.monitor = v.monitor := congrArg Clock.monitor e
  have scl : w.scl = v.scl := congrArg Clock.scl e
  have sda : w.sda = v.sda := congrArg Clock.sda e
  have busFree : w.busFreeTimer = v.busFreeTimer := congrArg Clock.busFreeTimer e
  have quiet : w.quietTimer = v.quietTimer := congrArg Clock.quietTimer e
  have dataHeld : w.dataHeldTimer = v.dataHeldTimer := congrArg Clock.dataHeldTimer e
  have clockHeld : w.clockHeldTimer = v.clockHeldTimer := congrArg Clock.clockHeldTimer e
  have busyLong : w.busyLongTimer = v.busyLongTimer := congrArg Clock.busyLongTimer e
  refine ⟨?_, ?_, ?_, ?_, ?_, ?_⟩
  · rw [monitor, scl, sda]; exact h.free
  · rw [busFree, monitor, scl, sda]; exact h.busFree
  · rw [quiet, engine, scl, sda]; exact h.quiet
  · rw [dataHeld, engine, scl, sda]; exact h.dataHeld
  · rw [clockHeld, engine, scl]; exact h.clockHeld
  · rw [busyLong, monitor, engine, inForce]; exact h.busyLong

/-! ## Operations that leave the clocks -/

theorem clocks_setSeg {s : State} {g : SegId} {v : Seg} (h : v.clock = (s.seg g).clock) :
    (s.setSeg g v).clocks = s.clocks := by
  cases g
  · exact congrArg (fun c => (⟨s.resetn, c, s.segB.clock⟩ : Clocks)) h
  · exact congrArg (fun c => (⟨s.resetn, s.segA.clock, c⟩ : Clocks)) h

section
variable (s : State) (p q : PortId) (i : SlotId) (g : SegId)

@[simp] theorem clocks_setPort (v : Port) : (s.setPort p v).clocks = s.clocks := rfl
@[simp] theorem clocks_modPort (f : Port → Port) : (s.modPort p f).clocks = s.clocks := rfl
@[simp] theorem clocks_setSlot (r : Slot) : (s.setSlot i r).clocks = s.clocks := rfl
@[simp] theorem clocks_modSlot (f : Slot → Slot) : (s.modSlot i f).clocks = s.clocks := rfl
@[simp] theorem clocks_releaseSlot : (s.releaseSlot i).clocks = s.clocks := rfl
@[simp] theorem clocks_setMapEntry (t : TargetId) (e : MapEntry) : (s.setMapEntry t e).clocks = s.clocks := rfl

/-- What each step of a fold leaves, the fold leaves. -/
theorem clocks_foldl {α : Type} {f : State → α → State} (h : ∀ s x, (f s x).clocks = s.clocks) (l : List α) (s : State) :
    (l.foldl f s).clocks = s.clocks := by
  induction l generalizing s with
  | nil => rfl
  | cons x l ih => rw [List.foldl_cons, ih, h]

/-! The outgoing side. -/

@[simp] theorem clocks_give : (s.give p).clocks = s.clocks := by
  obtain ⟨v, hv, _⟩ := give_queue s p
  rw [hv, clocks_setPort]

@[simp] theorem clocks_enqueue (item : Item) : (s.enqueue p item).clocks = s.clocks := by
  obtain ⟨v, hv, _⟩ := enqueue_queue s p item
  rw [hv, clocks_setPort]

@[simp] theorem clocks_compose (e : StoreIx) (x : StoreEntry) : (s.compose p e x).clocks = s.clocks := clocks_enqueue _ _ _

@[simp] theorem clocks_refuse (e : StoreIx) (reason : Reason) (kind tag : Byte) :
    (s.refuse p e reason kind tag).clocks = s.clocks := clocks_compose _ _ _ _

@[simp] theorem clocks_mreply (e : StoreIx) (tag op : Byte) (st : MgmtStatus) (reply : List Byte) :
    (s.mreply p e tag op st reply).clocks = s.clocks := clocks_compose _ _ _ _

@[simp] theorem clocks_badarg (e : StoreIx) (tag op : Byte) : (s.badarg p e tag op).clocks = s.clocks :=
  clocks_compose _ _ _ _

@[simp] theorem clocks_canreply (e : StoreIx) (tag : Byte) (o : CancelOutcome) (named : Byte) :
    (s.canreply p e tag o named).clocks = s.clocks := clocks_compose _ _ _ _

@[simp] theorem clocks_notice (kind : NoticeKind) (arg : Byte) : (s.notice p kind arg).clocks = s.clocks := by
  unfold State.notice; dsimp only; split <;> simp

@[simp] theorem clocks_noticeTo (ps : List PortId) (kind : NoticeKind) (arg : Byte) :
    (s.noticeTo ps kind arg).clocks = s.clocks :=
  clocks_foldl (fun s p => by unfold State.noticeIf; split <;> simp) ps s

/-! The slot pool. -/

@[simp] theorem clocks_answer (res : Result) : (s.answer i res).clocks = s.clocks := clocks_enqueue _ _ _

@[simp] theorem clocks_unlist : (s.unlist i).clocks = s.clocks := clocks_setSeg rfl

@[simp] theorem clocks_rejoin : (s.rejoin i).clocks = s.clocks := clocks_setSeg rfl

@[simp] theorem clocks_withdraw (st : Status) : (s.withdraw i st).clocks = s.clocks := by simp [State.withdraw]

@[simp] theorem clocks_purge (t : TargetId) : (s.purge t).clocks = s.clocks :=
  clocks_foldl (fun s i => clocks_withdraw s i .retired) _ _

@[simp] theorem clocks_failList : (s.failList g).clocks = s.clocks :=
  clocks_foldl (fun s i => clocks_withdraw s i .segfault) _ _

/-- What the pool makes of an attempt that ends is a request freed, answered or returned to its list (R31 to R34, R38). -/
@[simp] theorem clocks_settle (a : Attempt) (f : Option Failure) : (s.settle a f).clocks = s.clocks := by
  rcases settle_cases s a f with freed | ⟨_, ⟨_, _, _, answered⟩ | ⟨_, _, returned⟩⟩
  · rw [freed, clocks_releaseSlot]
  · rw [answered, clocks_answer, clocks_setSlot]
  · rw [returned, clocks_rejoin, clocks_setSlot]

@[simp] theorem clocks_expireLifetime : (s.expireLifetime i).clocks = s.clocks := by
  unfold State.expireLifetime; dsimp only; split <;> simp

@[simp] theorem clocks_fillSlot (tag : Byte) (x : Admission) : (s.fillSlot p tag x).clocks = s.clocks :=
  clocks_setSeg (s := s.setSlot x.slot _) rfl

@[simp] theorem clocks_cancelNamed (e : StoreIx) (tag named : Byte) : (s.cancelNamed p e tag named).clocks = s.clocks := by
  unfold State.cancelNamed
  split
  · simp
  · split <;> simp

@[simp] theorem clocks_answerRecovery (st : MgmtStatus) : (s.answerRecovery g st).clocks = s.clocks := by
  have cleared : (s.setSeg g { s.seg g with recovery := none }).clocks = s.clocks := clocks_setSeg rfl
  unfold State.answerRecovery
  split
  · rfl
  · dsimp only
    split
    · rw [clocks_mreply, cleared]
    · exact cleared

/-! The line of a port. -/

@[simp] theorem clocks_endBreak : (s.endBreak p).clocks = s.clocks := by simp [State.endBreak]

@[simp] theorem clocks_endBreakIfMark : (s.endBreakIfMark p).clocks = s.clocks := by
  unfold State.endBreakIfMark; split <;> simp

@[simp] theorem clocks_setFormat (e : StoreIx) (f : LineFormat) : (s.setFormat p q e f).clocks = s.clocks := by
  unfold State.setFormat State.switchNow
  split
  · rfl
  · split
    · simp
    · split
      · simp
      · split <;> simp

@[simp] theorem clocks_restartSlot : (s.restartSlot p i).clocks = s.clocks := by
  unfold State.restartSlot
  split
  · split <;> simp
  · rfl

@[simp] theorem clocks_dropRecovery : (s.dropRecovery p g).clocks = s.clocks := by
  unfold State.dropRecovery
  split
  · split
    · exact clocks_setSeg rfl
    · rfl
  · rfl

@[simp] theorem clocks_portRestart : (s.portRestart p).clocks = s.clocks := by
  simp only [State.portRestart, clocks_endBreakIfMark, clocks_dropRecovery]
  exact clocks_foldl (fun s i => clocks_restartSlot s p i) _ _

@[simp] theorem clocks_releaseItem (item : Item) : (s.releaseItem p item).clocks = s.clocks := by
  cases item <;> rfl

@[simp] theorem clocks_switchAt (item : Item) : (s.switchAt p item).clocks = s.clocks := by
  unfold State.switchAt
  split
  · split <;> simp
  · rfl

/-! Management operations that reach no engine. -/

variable (e : StoreIx) (tag : Byte) (args : List Byte)

@[simp] theorem clocks_mapWrite : (s.mapWrite p e tag args).clocks = s.clocks := by
  unfold State.mapWrite State.writeEntry
  split
  · split <;> simp
  · simp

@[simp] theorem clocks_mapRead : (s.mapRead p e tag args).clocks = s.clocks := by
  unfold State.mapRead
  split
  · split <;> simp
  · simp

@[simp] theorem clocks_retireEntry (t : TargetId) (purge : Bool) : (s.retireEntry p t purge).clocks = s.clocks := by
  unfold State.retireEntry
  cases purge <;> dsimp only <;> split <;> simp

@[simp] theorem clocks_mapRetire : (s.mapRetire p e tag args).clocks = s.clocks := by
  unfold State.mapRetire
  split
  · split <;> simp
  · simp

@[simp] theorem clocks_setProfile (x : Profile) : (s.setProfile p q e x).clocks = s.clocks := clocks_setFormat _ _ _ _ _

@[simp] theorem clocks_portSet : (s.portSet p e tag args).clocks = s.clocks := by
  unfold State.portSet
  split
  · split
    · split
      · simp
      · split <;> simp
    · simp
  · simp

@[simp] theorem clocks_portRead : (s.portRead p e tag args).clocks = s.clocks := by
  unfold State.portRead
  split
  · split <;> simp
  · simp

@[simp] theorem clocks_setHeld (op : Byte) (b : Bool) : (s.setHeld p e tag op g b).clocks = s.clocks := by
  unfold State.setHeld
  split
  · simp
  · rw [clocks_mreply]; exact clocks_setSeg rfl

@[simp] theorem clocks_segHold : (s.segHold p e tag args).clocks = s.clocks := by
  unfold State.segHold
  split
  · split <;> simp
  · simp

@[simp] theorem clocks_segRelease : (s.segRelease p e tag args).clocks = s.clocks := by
  unfold State.segRelease
  split
  · split <;> simp
  · simp

@[simp] theorem clocks_clearCounters (x : Selector) : (s.clearCounters x).clocks = s.clocks := by
  cases x with
  | port q => rfl
  | seg g => exact clocks_setSeg rfl
  | pool => rfl

@[simp] theorem clocks_statusRead : (s.statusRead p e tag args).clocks = s.clocks := by
  unfold State.statusRead
  split
  · split
    · rw [clocks_mreply]; split <;> simp
    · simp
  · simp

@[simp] theorem clocks_restartOp : (s.restartOp p e tag args).clocks = s.clocks := by
  unfold State.restartOp; split <;> simp

end

end Sys2Proof.Machine
end

section
/-! SUPPORT. The timers of a segment stay fitted where its lines are seen anew and its engine changes (R84, R85, R96, R100,
R101). -/
namespace Sys2Proof.Machine

/-! ## The bus monitor (R84, R85) -/

/-- The monitor of a segment fits its lines: both are high in FREE, and the bus-free timer runs just while the monitor is
SETTLING and both are high (R84, R85). -/
def Seg.MonitorFits (v : Seg) : Prop :=
  (v.monitor = .free → v.scl = true ∧ v.sda = true) ∧
    (v.busFreeTimer.isSome = true ↔ v.monitor = .settling ∧ v.scl = true ∧ v.sda = true)

section
variable {v : Seg}

/-- The bus-free timer runs only in SETTLING. -/
theorem busFree_stopped (h : v.MonitorFits) (hm : v.monitor ≠ .settling) : v.busFreeTimer = none := by
  rw [← Option.not_isSome_iff_eq_none]
  exact fun runs => hm (h.2.mp runs).1

theorem monitorFits_lowSeen {scl sda : Bool} (h : v.MonitorFits) (low : ¬(scl = true ∧ sda = true)) :
    (v.lowSeen scl sda).MonitorFits := by
  by_cases busy : v.monitor = .busy
  · have stopped := busFree_stopped h (by rw [busy]; nofun)
    simp [Seg.MonitorFits, Seg.lowSeen, busy, stopped]
  · simp [Seg.MonitorFits, Seg.lowSeen, busy, low]

theorem monitorFits_startSeen (h : v.MonitorFits) : v.startSeen.MonitorFits := by
  by_cases settling : v.monitor = .settling
  · simp [Seg.MonitorFits, Seg.startSeen, settling]
  · simp [Seg.MonitorFits, Seg.startSeen, settling, busFree_stopped h settling]

theorem monitorFits_stopSeen : v.stopSeen.MonitorFits := by simp [Seg.MonitorFits, Seg.stopSeen]

theorem monitorFits_highSeen (h : v.MonitorFits) : (v.see true true).monitorHigh.MonitorFits := by
  rw [high_eq]
  by_cases settling : v.monitor = .settling
  · cases timer : v.busFreeTimer <;> simp [Seg.MonitorFits, settling]
  · simp [Seg.MonitorFits, settling, busFree_stopped h settling]

/-- With its timer expired the monitor is FREE, and the lines are high still (R84). -/
theorem monitorFits_free (h : v.MonitorFits) (runs : v.busFreeTimer.isSome = true) :
    ({ v with busFreeTimer := none, monitor := .free } : Seg).MonitorFits :=
  ⟨fun _ => (h.2.mp runs).2, nofun, nofun⟩

end

/-! ## Changes that leave the check timers to follow -/

/-- A change of a segment keeps its monitor fitted and touches no check timer (R84, R101). -/
def Seg.Keeps (v w : Seg) : Prop :=
  (v.MonitorFits → w.MonitorFits) ∧ w.quietTimer = v.quietTimer ∧ w.dataHeldTimer = v.dataHeldTimer ∧
    w.clockHeldTimer = v.clockHeldTimer

theorem keeps_refl (v : Seg) : v.Keeps v := ⟨id, rfl, rfl, rfl⟩

section
variable {v w : Seg} (k : v.Keeps w)
include k

theorem keeps_seeLow {scl sda : Bool} (low : ¬(scl = true ∧ sda = true)) : v.Keeps (w.seeLow scl sda) := by
  rw [seeLow_eq]
  exact ⟨fun h => monitorFits_lowSeen (k.1 h) low, k.2⟩

theorem keeps_startSeen : v.Keeps (w.monitorStart.see true false) := by
  rw [start_eq]
  exact ⟨fun h => monitorFits_startSeen (k.1 h), k.2⟩

theorem keeps_ownStop : v.Keeps w.ownStop := by
  rw [ownStop_eq]
  exact ⟨fun _ => monitorFits_stopSeen, k.2⟩

theorem keeps_stop (met : w.monitor ≠ .free) : v.Keeps (w.see true true).monitorStop := by
  rw [stop_eq _ met]
  exact ⟨fun _ => monitorFits_stopSeen, k.2⟩

theorem keeps_highSeen : v.Keeps (w.see true true).monitorHigh := by
  refine ⟨fun h => monitorFits_highSeen (k.1 h), ?_⟩
  rw [high_eq]
  exact k.2

theorem keeps_seeLoss (how : LossCause) : v.Keeps (w.seeLoss how) := by
  cases how <;> exact keeps_seeLow k (by simp)

theorem keeps_enterRecover : v.Keeps w.enterRecover :=
  keeps_seeLow (scl := false) (w := { w with engine := .recover false, pulseCount := 0, counters := _ }) k (by simp)

end

/-! ## The check timers (R100, R101) -/

section
variable {v w : Seg}

theorem quietCond_iff : v.quietCond = true ↔ v.engine = .check false ∧ v.scl = true ∧ v.sda = true := by
  simp [Seg.quietCond, Seg.observing, and_assoc]

theorem dataHeldCond_iff : v.dataHeldCond = true ↔ v.engine = .check false ∧ v.scl = true ∧ v.sda = false := by
  simp [Seg.dataHeldCond, Seg.observing, and_assoc]

theorem clockHeldCond_iff : v.clockHeldCond = true ↔ v.engine = .check false ∧ v.scl = false := by
  simp [Seg.clockHeldCond, Seg.observing]

theorem busyLongCond_iff : v.busyLongCond = true ↔
    v.monitor = .busy ∧ v.engine.isRun = false ∧ v.inForce.busyLongLimit ≠ 0 := by
  simp [Seg.busyLongCond, and_assoc]

/-- A timer that follows its condition runs just while it holds, where it ran as long as it held (R96, R101). -/
theorem timerEdge_isSome {was is : Bool} {now : Option Nat} {n : Nat} (h : was = true → is = true → now.isSome = true) :
    (timerEdge was is now n).isSome = is := by
  cases is
  · rfl
  · cases was
    · rfl
    · exact h rfl rfl

theorem timerEdge_stopped {was is : Bool} {now : Option Nat} {n : Nat} (h : (timerEdge was is now n).isSome = true) :
    is = true := by
  cases is
  · cases h
  · rfl

/-- A changed segment fits when its monitor does, and each check timer that was to run on did. -/
theorem timersFit_retime (monitor : w.MonitorFits)
    (quiet : v.quietCond = true → w.quietCond = true → w.quietTimer.isSome = true)
    (dataHeld : v.dataHeldCond = true → w.dataHeldCond = true → w.dataHeldTimer.isSome = true)
    (clockHeld : v.clockHeldCond = true → w.clockHeldCond = true → w.clockHeldTimer.isSome = true) :
    (v.retime w).TimersFit where
  free := monitor.1
  busFree := monitor.2
  quiet := by
    rw [show (v.retime w).quietTimer = timerEdge _ _ _ _ from rfl, timerEdge_isSome quiet]
    exact quietCond_iff
  dataHeld := by
    rw [show (v.retime w).dataHeldTimer = timerEdge _ _ _ _ from rfl, timerEdge_isSome dataHeld]
    exact dataHeldCond_iff
  clockHeld := by
    rw [show (v.retime w).clockHeldTimer = timerEdge _ _ _ _ from rfl, timerEdge_isSome clockHeld]
    exact clockHeldCond_iff
  busyLong h := busyLongCond_iff.mp (timerEdge_stopped h)

/-- Timers that follow a change stay fitted. -/
theorem Seg.TimersFit.retime (h : v.TimersFit) (k : v.Keeps w) : (v.retime w).TimersFit := by
  obtain ⟨monitor, quiet, dataHeld, clockHeld⟩ := k
  refine timersFit_retime (monitor ⟨h.free, h.busFree⟩) (fun hv _ => ?_) (fun hv _ => ?_) fun hv _ => ?_
  · rw [quiet]; exact h.quiet.mpr (quietCond_iff.mp hv)
  · rw [dataHeld]; exact h.dataHeld.mpr (dataHeldCond_iff.mp hv)
  · rw [clockHeld]; exact h.clockHeld.mpr (clockHeldCond_iff.mp hv)

/-- Check timers started afresh from the levels seen fit them (R100, R101). -/
theorem timersFit_startCheckTimers (monitor : w.MonitorFits) : (v.retime w.startCheckTimers).TimersFit := by
  refine timersFit_retime monitor (fun _ hw => ?_) (fun _ hw => ?_) fun _ hw => ?_
  · obtain ⟨_, clock, data⟩ := quietCond_iff.mp hw
    have clock : w.scl = true := clock
    have data : w.sda = true := data
    simp [Seg.startCheckTimers, clock, data]
  · obtain ⟨_, clock, data⟩ := dataHeldCond_iff.mp hw
    have clock : w.scl = true := clock
    have data : w.sda = false := data
    simp [Seg.startCheckTimers, clock, data]
  · obtain ⟨_, clock⟩ := clockHeldCond_iff.mp hw
    have clock : w.scl = false := clock
    simp [Seg.startCheckTimers, clock]

/-- A segment at its restart values has the timers that its levels ask for (R83, R115). -/
theorem timersFit_restarted (l : Levels) : (Seg.restarted l).TimersFit := by
  obtain ⟨clock, data⟩ := l
  cases clock <;> cases data <;> exact Seg.timersFit_of (by decide)

end

/-! ## A part that runs -/

/-- The part runs, and the timers of both segments fit. -/
structure State.Timed (s : State) : Prop where
  running : s.resetn = true
  segs : ∀ g, (s.seg g).TimersFit

section
variable {s t : State} {g : SegId}

theorem State.Timed.timersFit (h : s.Timed) : s.TimersFit := by
  rw [State.TimersFit, h.running]; exact h.segs

theorem timed_of_timersFit (h : s.TimersFit) (hr : s.resetn = true) : s.Timed := by
  rw [State.TimersFit, hr] at h
  exact ⟨hr, h⟩

theorem State.Timed.of_clocks (h : s.Timed) (e : t.clocks = s.clocks) : t.Timed where
  running := (congrArg Clocks.resetn e).trans h.running
  segs := forall_seg ((h.segs .A).of_clock (congrArg Clocks.a e)) ((h.segs .B).of_clock (congrArg Clocks.b e))

theorem State.Timed.setSeg {v : Seg} (h : s.Timed) (hv : v.TimersFit) : (s.setSeg g v).Timed where
  running := (resetn_setSeg s g v).trans h.running
  segs k := by
    rw [seg_setSeg_eq]
    split
    · exact hv
    · exact h.segs k

/-- A change of a segment whose timers only follow it (R96, R101). -/
theorem State.Timed.modSeg {f : Seg → Seg} (h : s.Timed) (k : (s.seg g).Keeps (f (s.seg g))) : (s.modSeg g f).Timed :=
  h.setSeg ((h.segs g).retime k)

/-- A change of a segment that starts its check timers afresh (R100, R102). -/
theorem State.Timed.startChecks {f : Seg → Seg} {w : Seg} (h : s.Timed) (starts : f (s.seg g) = w.startCheckTimers)
    (monitor : (s.seg g).MonitorFits → w.MonitorFits) : (s.modSeg g f).Timed := by
  refine h.setSeg ?_
  rw [starts]
  exact timersFit_startCheckTimers (monitor ⟨(h.segs g).free, (h.segs g).busFree⟩)

theorem timed_enterCheck (h : s.Timed) : (s.modSeg g Seg.enterCheck).Timed := h.startChecks rfl id

/-- A part that starts has its timers started from the levels seen (R83, R115, R190). -/
theorem timed_started (s : State) (a b : Levels) : (s.started a b).Timed :=
  ⟨rfl, forall_seg (timersFit_restarted a) (timersFit_restarted b)⟩

end

end Sys2Proof.Machine
end

section
/-! SUPPORT. Every command keeps the timers of the segments fitted (R84, R85, R96, R101, R115). -/
namespace Sys2Proof.Machine

section
variable {s t : State} {g : SegId} {a : Attempt} {p : PortId} {e : StoreIx} {kind tag op : Byte} {args body : List Byte}

/-- An event that takes place only where a condition holds. -/
theorem timed_when {P : Prop} [Decidable P] (h : s.Timed) (ht : P → t.Timed) : (if P then t else s).Timed := by
  split
  · next hp => exact ht hp
  · exact h

/-! ## Entries into engine states, and the end of an attempt (R77, R100 to R107) -/

theorem timed_enterIdle (h : s.Timed) : (s.enterIdle g).Timed := by
  have idle : (s.modSeg g fun v => { v with engine := .idle }).Timed := h.modSeg (keeps_refl _)
  have answered := idle.of_clocks (clocks_answerRecovery _ g .done)
  unfold State.enterIdle
  exact timed_when answered fun _ => answered.of_clocks ((clocks_noticeTo _ _ _ _).trans (clocks_setSeg rfl))

theorem timed_enterFault (h : s.Timed) : (s.enterFault g).Timed := by
  have fault : (s.modSeg g fun v => { v with engine := .fault, readyOwed := true }).Timed := h.modSeg (keeps_refl _)
  exact fault.of_clocks (by simp [State.enterFault])

/-- The low clock of a pulse or of a stop that fails is seen, and the engine enters FAULT (R102, R105 to R107). -/
theorem timed_faultLow {f : Seg → Bool} {scl : Bool} (h : s.Timed) (low : ∀ v, ¬(scl = true ∧ f v = true)) :
    ((s.modSeg g fun v => v.seeLow scl (f v)).enterFault g).Timed :=
  timed_enterFault (h.modSeg (keeps_seeLow (keeps_refl _) (low _)))

theorem timed_drivePulse {stopping sda : Bool} (h : s.Timed) : (s.modSeg g fun v => v.drivePulse stopping sda).Timed :=
  h.modSeg (keeps_seeLow (scl := false) (w := { s.seg g with engine := .recover stopping }) (keeps_refl _) (by simp))

theorem timed_pulseOrFault {scl : Bool} (h : s.Timed) : (s.pulseOrFault g scl).Timed := by
  unfold State.pulseOrFault
  split
  · exact timed_faultLow (f := fun _ => false) h (by simp)
  · exact timed_drivePulse h

theorem timed_giveUpClosing {scl sda : Bool} (h : s.Timed) (low : ¬(scl = true ∧ sda = true)) :
    (s.modSeg g fun v => v.giveUpClosing scl sda).Timed :=
  h.startChecks rfl (keeps_seeLow (w := { s.seg g with engine := .check false }) (keeps_refl _) low).1

theorem timed_endAttempt {first : Option Failure} {second : Option FailKind} {toCheck opens : Bool} (h : s.Timed) :
    (s.endAttempt g a first second toCheck opens).Timed := by
  have settled := h.of_clocks (clocks_settle s a first)
  cases toCheck
  · exact settled.modSeg (keeps_refl _)
  · exact settled.startChecks rfl id

/-! ## What a running attempt makes of a command (R62 to R94) -/

theorem timed_inRun {f : Attempt → State} (h : s.Timed) (hf : ∀ a, (f a).Timed) : (s.inRun g f).Timed := by
  unfold State.inRun
  split
  · exact hf _
  · exact h

theorem timed_setAttempt (h : s.Timed) : (s.setAttempt g a).Timed := h.modSeg (keeps_refl _)

theorem timed_openAttempt (h : s.Timed) : (s.openAttempt g a).Timed := by
  have counted := h.of_clocks (clocks_modSlot s a.slot fun r => { r with attempts := r.attempts + 1 })
  unfold State.openAttempt
  refine counted.modSeg ?_
  exact keeps_startSeen (w := { State.seg _ g with inForce := _, engine := _ }) (keeps_refl _)

theorem timed_meetStart (h : s.Timed) : (s.meetStart g).Timed := by
  unfold State.meetStart
  split
  · exact timed_when h fun _ => timed_endAttempt h
  · exact h

theorem timed_meetCondition (h : s.Timed) : (s.meetCondition g).Timed := by
  unfold State.meetCondition
  split
  · exact timed_when h fun _ => timed_endAttempt h
  · exact h

theorem timed_meetRestart (h : s.Timed) : (s.meetRestart g).Timed :=
  timed_inRun h fun _ => timed_when h fun _ => timed_setAttempt h

theorem timed_meetClockLow {fell : Bool} (h : s.Timed) : (s.meetClockLow g fell).Timed :=
  timed_inRun h fun _ => timed_setAttempt h

theorem timed_stretchOut (h : s.Timed) : (s.stretchOut g a).Timed := by
  unfold State.stretchOut
  split <;> exact timed_endAttempt h

theorem timed_loseArbitration {how : LossCause} (h : s.Timed) : (s.loseArbitration g a how).Timed := by
  unfold State.loseArbitration
  split
  · exact timed_endAttempt h
  · split
    · exact timed_endAttempt h
    · exact timed_setAttempt h

/-- A command that completes the stop of an attempt (R64, R73 to R77, R80). -/
theorem timed_stopped {failure : Option FailKind} {toCheck : Bool} (h : s.Timed) :
    (s.inRun g fun a => if a.stopsWith failure then s.completeStop g a toCheck else s).Timed :=
  timed_inRun h fun _ => timed_when h fun _ => timed_endAttempt (h.modSeg (keeps_ownStop (keeps_refl _)))

theorem timed_choose {i : SlotId} (h : s.Timed) : (s.choose g i).Timed := by
  have passed : ((s.passed g i).foldl (fun s j => s.modSlot j Slot.passOver) s).Timed :=
    h.of_clocks (clocks_foldl (fun s j => clocks_modSlot s j _) _ s)
  have active := passed.of_clocks (clocks_modSlot _ i fun r => { r with state := .active })
  exact active.modSeg (f := fun v => { v with list := _, engine := _ }) (keeps_refl _)

/-! ## Management of a segment (R80, R81, R104, R108 to R113) -/

theorem timed_applySetup {x : Setup} (h : s.Timed) : (s.modSeg g fun v => v.applySetup x).Timed := by
  obtain ⟨enable, timing⟩ := x
  cases enable
  · exact h.modSeg (keeps_refl _)
  · by_cases off : (s.seg g).engine = .off
    · refine h.startChecks (w := { s.seg g with setup := ⟨true, timing⟩, engine := .check false, inForce := timing }) ?_ id
      rw [Seg.applySetup, if_pos rfl, off]
      rfl
    · refine h.modSeg ?_
      have kept : (s.seg g).applySetup ⟨true, timing⟩ = { s.seg g with setup := ⟨true, timing⟩ } := by
        rw [Seg.applySetup, if_pos rfl]
        split
        · next e => exact absurd e off
        · rfl
      rw [kept]
      exact keeps_refl _

theorem timed_segSet (h : s.Timed) : (s.segSet p e tag args).Timed := by
  unfold State.segSet
  split
  · split
    · split
      · exact h.of_clocks (by simp)
      · exact (timed_applySetup h).of_clocks (clocks_mreply ..)
    · exact h.of_clocks (by simp)
  · exact h.of_clocks (by simp)

theorem timed_startRecovery (h : s.Timed) : (s.startRecovery p e tag g).Timed :=
  (h.of_clocks (clocks_modPort s p _)).modSeg (keeps_enterRecover (keeps_refl _))

theorem timed_segRecover (h : s.Timed) : (s.segRecover p e tag args).Timed := by
  unfold State.segRecover
  split
  · split
    · split
      · exact h.of_clocks (by simp)
      · exact timed_startRecovery h
    · exact h.of_clocks (by simp)
  · exact h.of_clocks (by simp)

theorem timed_resetRun (h : s.Timed) : (s.resetRun g a).Timed := by
  unfold State.resetRun State.abort
  split
  · exact timed_endAttempt h
  · split
    · split
      · exact (h.of_clocks (t := { s with freeCount := s.freeCount + 1 }) rfl).modSeg (keeps_refl _)
      · exact h.modSeg (keeps_refl _)
    · exact timed_endAttempt h

theorem timed_segReset (h : s.Timed) : (s.segReset p e tag args).Timed := by
  unfold State.segReset
  split
  · split
    · split
      · exact timed_resetRun (h.of_clocks (by simp))
      · exact (timed_enterCheck h).of_clocks (clocks_mreply ..)
      · exact (timed_enterCheck h).of_clocks (clocks_mreply ..)
      all_goals exact h.of_clocks (by simp)
    · exact h.of_clocks (by simp)
  · exact h.of_clocks (by simp)

/-! ## Messages (R138, R139, R144, R147) -/

theorem timed_mgmtOp (h : s.Timed) : (s.mgmtOp p e tag op args).Timed := by
  by_cases reaches : op ∈ [opSegSet, opSegRecover, opSegReset]
  · simp only [List.mem_cons, List.not_mem_nil, or_false] at reaches
    rcases reaches with rfl | rfl | rfl
    · exact timed_segSet h
    · exact timed_segRecover h
    · exact timed_segReset h
  · simp only [List.mem_cons, List.not_mem_nil, or_false, not_or] at reaches
    obtain ⟨set, recover, reset⟩ := reaches
    refine h.of_clocks ?_
    simp only [State.mgmtOp, if_neg set, if_neg recover, if_neg reset, apply_ite State.clocks, clocks_mapWrite,
      clocks_mapRead, clocks_mapRetire, clocks_portSet, clocks_portRead, clocks_segHold, clocks_segRelease,
      clocks_statusRead, clocks_restartOp, clocks_refuse, ite_self]

/-- A message that passes the gate is handled on the same clocks; one that is discarded there leaves them (R163). -/
theorem timed_gate {short : ShortKind} {k : StoreIx → State → State} (h : s.Timed) (hk : ∀ e t, t.Timed → (k e t).Timed) :
    (s.gate p short k).Timed := by
  unfold State.gate
  split
  · exact hk _ _ (h.of_clocks rfl)
  · exact h.of_clocks rfl

theorem timed_gatedRefuse {reason : Reason} (h : s.Timed) : (s.gatedRefuse p reason kind tag).Timed :=
  timed_gate h fun e _ ht => ht.of_clocks (clocks_refuse _ p e _ _ _)

theorem timed_takeTxn (h : s.Timed) : (s.takeTxn p tag body).Timed := by
  unfold State.takeTxn
  split
  · exact h.of_clocks (by simp)
  · exact timed_gatedRefuse h

theorem timed_takeCancel (h : s.Timed) : (s.takeCancel p tag body).Timed :=
  timed_gate h fun e t ht => ht.of_clocks (by split <;> simp)

theorem timed_takeMgmt (h : s.Timed) : (s.takeMgmt p tag body).Timed :=
  timed_gate h fun e t ht => by
    split
    · exact ht.of_clocks (by simp)
    · split
      · exact ht.of_clocks (by simp)
      · exact timed_mgmtOp ht

theorem timed_takeMessage (h : s.Timed) : (s.takeMessage p kind tag body).Timed := by
  have counted := h.of_clocks (clocks_modPort s p fun v =>
    { v with counters := { v.counters with accepted := bump v.counters.accepted } })
  unfold State.takeMessage
  dsimp only
  split
  · exact timed_gatedRefuse counted
  · split
    · exact timed_takeTxn counted
    · split
      · exact timed_takeCancel counted
      · split
        · exact timed_takeMgmt counted
        · exact timed_gatedRefuse counted

theorem timed_judgeFrame {crc : BitVec 16} (h : s.Timed) : (s.judgeFrame p kind tag body crc).Timed := by
  unfold State.judgeFrame
  dsimp only
  split
  · exact timed_takeMessage (h.of_clocks rfl)
  · exact h.of_clocks rfl

theorem timed_completeFrame {crc : BitVec 16} (h : s.Timed) : (s.completeFrame p kind tag body crc).Timed :=
  timed_when h fun _ => timed_judgeFrame (h.of_clocks rfl)

theorem timed_completeMessage (h : s.Timed) : (s.completeMessage p kind tag body).Timed := timed_completeFrame h

theorem timed_judgeBuffer (h : s.Timed) (buffer : List Byte) : (s.judgeBuffer p buffer).Timed := by
  unfold State.judgeBuffer
  split
  · split
    · exact timed_judgeFrame h
    · exact h
  · exact h

theorem timed_assembleByte (h : s.Timed) (b : Byte) : (s.assembleByte p b).Timed := by
  unfold State.assembleByte State.receiveByte
  split
  · split <;> exact h.of_clocks rfl
  · dsimp only
    split
    · exact h.of_clocks rfl
    · split
      · exact timed_judgeBuffer h _
      · exact h.of_clocks rfl
  · exact h

theorem timed_endCharacter (h : s.Timed) (c : RxChar) : (s.endCharacter p c).Timed := by
  unfold State.endCharacter
  dsimp only
  split
  · exact timed_assembleByte (h.of_clocks (clocks_modPort s p Port.goodEnd)) _
  · exact h.of_clocks rfl
  · split <;> exact h.of_clocks rfl

/-- The completion of a message, which may be the reply to a RESTART (R161, R190). -/
theorem timed_complete {item : Item} {rest : List Item} (h : s.Timed) : (s.complete p item rest).Timed := by
  unfold State.complete
  dsimp only
  split
  · exact timed_started _ _ _
  · exact h.of_clocks (by simp)

end

end Sys2Proof.Machine
end

section
/-! SUPPORT. Every command, and so every step, keeps the timers of the segments fitted (R84, R85, R96, R101, R115). -/
namespace Sys2Proof.Machine

section
variable {s t : State} {g : SegId} {p : PortId}

/-- A command acts only while RESETN is high, where it keeps the timers fitted; else no timer runs, and none starts. -/
theorem timersFit_of_running {f : State → State} (h : s.TimersFit) (hn : s.running f = .next t)
    (hf : s.Timed → (f s).Timed) : t.TimersFit := by
  unfold State.running at hn
  split at hn <;> cases hn
  · next hr => exact (hf (timed_of_timersFit h hr)).timersFit
  · exact h

theorem timersFit_of_message {kind tag : Byte} {body : List Byte} (h : s.TimersFit)
    (hn : (s.running fun s => s.completeMessage p kind tag body) = .next t) : t.TimersFit :=
  timersFit_of_running h hn timed_completeMessage

theorem timersFit_deviceReset (s : State) : s.inReset.TimersFit :=
  forall_seg ⟨rfl, rfl, rfl, rfl, rfl, nofun⟩ ⟨rfl, rfl, rfl, rfl, rfl, nofun⟩

theorem deviceResetEnd_keeps_timers {a b : Levels} (h : s.TimersFit) (hn : execDeviceResetEnd a b s = .next t) :
    t.TimersFit := by
  unfold execDeviceResetEnd at hn
  split at hn <;> cases hn
  · exact h
  · exact (timed_started s a b).timersFit

/-! ## Commands of a segment's engine and monitor -/

theorem monitorStopSeen_keeps_timers (h : s.TimersFit) (hn : execMonitorStopSeen g s = .next t) : t.TimersFit :=
  timersFit_of_running h hn fun h => by
    split
    · exact h
    · next met => exact timed_meetCondition (h.modSeg (keeps_stop (keeps_refl _) met))

theorem lineLow_keeps_timers {l : Levels} (h : s.TimersFit) (hn : execLineLow g l s = .next t) : t.TimersFit :=
  timersFit_of_running h hn fun h => by
    split
    · exact h
    · next low =>
      have seen : (s.modSeg g fun v => v.seeLow l.clock l.data).Timed := h.modSeg (keeps_seeLow (keeps_refl _) low)
      have met := timed_meetStart (g := g) seen
      dsimp only
      split
      · exact met
      · exact timed_meetClockLow met

theorem busyLongTimerExpiry_keeps_timers (h : s.TimersFit) (hn : execBusyLongTimerExpiry g s = .next t) : t.TimersFit :=
  timersFit_of_running h hn fun h => timed_when h fun _ => by
    obtain ⟨free, busFree, quiet, dataHeld, clockHeld, _⟩ := h.segs g
    have stopped : (s.setSeg g { s.seg g with busyLongTimer := none }).Timed :=
      h.setSeg ⟨free, busFree, quiet, dataHeld, clockHeld, nofun⟩
    dsimp only
    split
    · exact stopped
    · exact stopped.of_clocks ((clocks_noticeTo ..).trans (clocks_setSeg rfl))

theorem quietTimerExpiry_keeps_timers (h : s.TimersFit) (hn : execQuietTimerExpiry g s = .next t) : t.TimersFit :=
  timersFit_of_running h hn fun h => timed_when h fun _ => by
    split
    · exact h.modSeg (keeps_seeLow (w := { s.seg g with engine := .check true }) (keeps_refl _) (by simp))
    · exact timed_enterIdle h

theorem closingStopFails_keeps_timers {how : StopFailure} (h : s.TimersFit)
    (hn : execClosingStopFails g how s = .next t) : t.TimersFit :=
  timersFit_of_running h hn fun h => timed_when h fun _ => by
    cases how with
    | dataNotHigh => exact timed_giveUpClosing h (by simp)
    | clockFell => exact timed_giveUpClosing h (by simp)
    | clockHeld => exact timed_faultLow h (by simp)

theorem releasePulse_keeps_timers {data : Bool} (h : s.TimersFit) (hn : execReleasePulse g data s = .next t) :
    t.TimersFit :=
  timersFit_of_running h hn fun h => timed_when h fun _ => by
    have counted := h.of_clocks (clocks_setSeg (g := g) (v := { s.seg g with pulseCount := (s.seg g).pulseCount + 1 }) rfl)
    cases data
    · exact timed_pulseOrFault counted
    · exact timed_drivePulse counted

theorem recoveryStopComplete_keeps_timers {how : StopEnd} (h : s.TimersFit)
    (hn : execRecoveryStopComplete g how s = .next t) : t.TimersFit :=
  timersFit_of_running h hn fun h => timed_when h fun _ => by
    cases how with
    | complete => exact h.startChecks rfl (keeps_ownStop (keeps_refl _)).1
    | dataNotHigh => exact timed_pulseOrFault h
    | clockFell => exact timed_pulseOrFault h

/-- What a command of a segment's engine or monitor keeps. -/
theorem segment_keeps_timers {c : Instr} (h : s.TimersFit) (hg : segmentOf c = some g) (hn : exec c s = .next t) :
    t.TimersFit := by
  cases c with
  | choice g =>
    unfold exec execChoice at hn
    exact timersFit_of_running h hn fun h => timed_when h fun _ => by
      split
      · exact timed_choose h
      · exact h
  | openingStart g =>
    unfold exec execOpeningStart at hn
    exact timersFit_of_running h hn fun h => timed_inRun h fun _ => timed_when h fun _ => timed_openAttempt h
  | attemptEndsOk g =>
    unfold exec execAttemptEndsOk at hn
    exact timersFit_of_running h hn timed_stopped
  | attemptEndsAddressNack g =>
    unfold exec execAttemptEndsAddressNack at hn
    exact timersFit_of_running h hn timed_stopped
  | attemptEndsDataNack g =>
    unfold exec execAttemptEndsDataNack at hn
    exact timersFit_of_running h hn timed_stopped
  | attemptEndsAborted g =>
    unfold exec execAttemptEndsAborted at hn
    exact timersFit_of_running h hn timed_stopped
  | attemptEndsArbitrationLost g =>
    unfold exec execAttemptEndsArbitrationLost at hn
    exact timersFit_of_running h hn fun h => timed_inRun h fun _ => timed_when h fun _ => timed_endAttempt h
  | stretchTimeout g =>
    unfold exec execStretchTimeout at hn
    exact timersFit_of_running h hn fun h => timed_inRun h fun _ => by
      split
      · exact h
      · exact timed_stretchOut (h.modSeg (keeps_seeLow (keeps_refl _) (by simp)))
  | acknowledgeBitRead g data ninth =>
    unfold exec execAcknowledgeBitRead at hn
    exact timersFit_of_running h hn fun h => timed_inRun h fun _ => timed_when h fun _ =>
      h.modSeg (keeps_seeLow (w := { s.seg g with engine := .run _ }) (keeps_refl _) (by simp))
  | arbitrationLost g how =>
    unfold exec execArbitrationLost at hn
    exact timersFit_of_running h hn fun h => timed_inRun h fun _ => timed_when h fun _ =>
      timed_loseArbitration (h.modSeg (keeps_seeLoss (keeps_refl _) how))
  | monitorStartSeen g =>
    unfold exec execMonitorStartSeen at hn
    exact timersFit_of_running h hn fun h =>
      timed_meetRestart (timed_meetCondition (timed_meetStart (h.modSeg (keeps_startSeen (keeps_refl _)))))
  | monitorStopSeen g => exact monitorStopSeen_keeps_timers h hn
  | lineLow g l => exact lineLow_keeps_timers h hn
  | bothLinesHigh g =>
    unfold exec execBothLinesHigh at hn
    exact timersFit_of_running h hn fun h => h.modSeg (keeps_highSeen (keeps_refl _))
  | busFreeTimerExpiry g =>
    unfold exec execBusFreeTimerExpiry at hn
    exact timersFit_of_running h hn fun h => timed_when h fun runs =>
      h.modSeg ⟨fun m => monitorFits_free m runs, rfl, rfl, rfl⟩
  | busyLongTimerExpiry g => exact busyLongTimerExpiry_keeps_timers h hn
  | quietTimerExpiry g => exact quietTimerExpiry_keeps_timers h hn
  | dataHeldTimerExpiry g =>
    unfold exec execDataHeldTimerExpiry at hn
    exact timersFit_of_running h hn fun h => timed_when h fun _ =>
      h.modSeg (keeps_enterRecover (w := { s.seg g with readyOwed := true }) (keeps_refl _))
  | clockHeldTimerExpiry g =>
    unfold exec execClockHeldTimerExpiry at hn
    exact timersFit_of_running h hn fun h => timed_when h fun _ => timed_enterFault h
  | closingStopComplete g =>
    unfold exec execClosingStopComplete at hn
    exact timersFit_of_running h hn fun h => timed_when h fun _ =>
      timed_enterIdle (h.modSeg (keeps_ownStop (keeps_refl _)))
  | closingStopFails g how => exact closingStopFails_keeps_timers h hn
  | releasePulse g data => exact releasePulse_keeps_timers h hn
  | recoveryClockHeld g =>
    unfold exec execRecoveryClockHeld at hn
    exact timersFit_of_running h hn fun h => timed_when h fun _ => timed_faultLow h (by simp)
  | recoveryStopComplete g how => exact recoveryStopComplete_keeps_timers h hn
  | _ => cases hg

/-! ## Commands of the ports and of the requests -/

/-- Every command keeps the timers fitted. -/
theorem exec_keeps_timers {c : Instr} (h : s.TimersFit) (hn : exec c s = .next t) : t.TimersFit := by
  cases c with
  | deviceReset => cases hn; exact timersFit_deviceReset s
  | deviceResetEnd a b => exact deviceResetEnd_keeps_timers h hn
  | characterReceived p ch =>
    unfold exec execCharacterReceived at hn
    exact timersFit_of_running h hn fun h => timed_when h fun _ => timed_endCharacter h ch
  | crcError p kind tag body crc =>
    unfold exec execCrcError at hn
    refine timersFit_of_running h hn fun h => ?_
    split
    · exact h
    · exact timed_completeFrame h
  | badverBadkindMessage p kind tag body =>
    unfold exec execBadverBadkindMessage at hn
    refine timersFit_of_running h hn fun h => ?_
    split
    · exact h
    · exact timed_completeMessage h
  | mgmtBadop p tag body =>
    unfold exec execMgmtBadop at hn
    refine timersFit_of_running h hn fun h => ?_
    split
    · exact h
    · exact timed_completeMessage h
  | breakWatchEndsAtMark p =>
    unfold exec execBreakWatchEndsAtMark at hn
    refine timersFit_of_running h hn fun h => ?_
    split <;> exact h.of_clocks rfl
  | gapTimerExpiry p =>
    unfold exec execGapTimerExpiry at hn
    exact timersFit_of_running h hn fun h => timed_when h fun _ => h.of_clocks rfl
  | breakRecognized p =>
    unfold exec execBreak at hn
    exact timersFit_of_running h hn fun h => timed_when h fun _ => h.of_clocks (clocks_portRestart ..)
  | breakEnd p =>
    unfold exec execBreakEnd at hn
    exact timersFit_of_running h hn fun h => timed_when h fun _ => h.of_clocks (clocks_endBreak ..)
  | startBit p stands =>
    unfold exec execStartBit at hn
    exact timersFit_of_running h hn fun h => timed_when h fun _ => h.of_clocks rfl
  | transmitterHeld p =>
    unfold exec execTransmitterHeld at hn
    exact timersFit_of_running h hn fun h => timed_when h fun _ => h.of_clocks (clocks_give ..)
  | messageTransmitted p =>
    unfold exec execMessageTransmitted at hn
    refine timersFit_of_running h hn fun h => ?_
    split
    · exact timed_complete h
    · exact h
  | retryTimerExpiry i =>
    unfold exec execRetryTimerExpiry at hn
    exact timersFit_of_running h hn fun h => timed_when h fun _ => h.of_clocks rfl
  | lifetimeExpiry i =>
    unfold exec execLifetimeExpiry at hn
    exact timersFit_of_running h hn fun h => timed_when h fun _ => h.of_clocks (clocks_expireLifetime ..)
  | txn p tag body => exact timersFit_of_message h hn
  | cancel p tag body => exact timersFit_of_message h hn
  | mapWrite p tag args => exact timersFit_of_message h hn
  | mapRead p tag args => exact timersFit_of_message h hn
  | mapRetire p tag args => exact timersFit_of_message h hn
  | portSet p tag args => exact timersFit_of_message h hn
  | portRead p tag args => exact timersFit_of_message h hn
  | segSet p tag args => exact timersFit_of_message h hn
  | segHold p tag args => exact timersFit_of_message h hn
  | segRelease p tag args => exact timersFit_of_message h hn
  | segRecover p tag args => exact timersFit_of_message h hn
  | segReset p tag args => exact timersFit_of_message h hn
  | statusRead p tag args => exact timersFit_of_message h hn
  | restart p tag args => exact timersFit_of_message h hn
  | _ => exact segment_keeps_timers h rfl hn

end

/-- Settles O53: an empty queue idles, and every command keeps the timers fitted. -/
theorem timersStayFitted : Obligations.TimersStayFitted := by
  intro s t h hn
  unfold step at hn
  split at hn
  · cases hn; exact h
  · next c rest _ => exact exec_keeps_timers (s := { s with pending := rest }) h hn

end Sys2Proof.Machine
end

section
/-! SUPPORT. The end of a device reset (R83, R100, R101, R115, R133). -/
namespace Sys2Proof.Machine

/-- A segment that starts is in its reset values, with the timers that the levels seen ask for (R83, R101, R115). -/
theorem restarted_eq (l : Levels) (scl sda : Bool) : Seg.restarted l = { Seg.resetHeld scl sda with
    scl := l.clock
    sda := l.data
    busFreeTimer := if l.clock ∧ l.data then some 5 else none
    quietTimer := if l.clock ∧ l.data then some 5 else none
    dataHeldTimer := if l.clock ∧ ¬l.data then some 1 else none
    clockHeldTimer := if ¬l.clock then some 25 else none } := by
  obtain ⟨clock, data⟩ := l
  cases clock <;> cases data <;> rfl

/-- Settles O5: the part starts from the values of its reset, and each segment restarts at the levels it sees. -/
theorem deviceResetEndStartsThePart : Obligations.DeviceResetEndStartsThePart := by
  intro a b s
  refine ⟨fun high => if_pos high, fun low => ⟨s.started a b, s.inReset, rfl, ?_, rfl, ?_⟩⟩
  · change execDeviceResetEnd a b s = _
    rw [execDeviceResetEnd, low]
    rfl
  · refine forall_seg ?_ ?_
    · rw [seg_inReset]; exact restarted_eq a _ _
    · rw [seg_inReset]; exact restarted_eq b _ _

end Sys2Proof.Machine
end

section
/-! SUPPORT. A bus that is busy for long (R97). -/
namespace Sys2Proof.Machine

variable {s : State} {g : SegId}

theorem exec_busyLongTimerExpiry (hr : s.resetn = true) (runs : (s.seg g).busyLongTimer.isSome = true) :
    exec (.busyLongTimerExpiry g) s = .next
      (if (s.seg g).busyLongReported then s.setSeg g { s.seg g with busyLongTimer := none }
      else (s.setSeg g ({ s.seg g with busyLongTimer := none } : Seg).reportBusyLong).noticeTo allPorts .busyLong
        (segCode g)) := by
  change execBusyLongTimerExpiry g s = _
  rw [execBusyLongTimerExpiry, running_of hr, if_pos runs]
  simp only [seg_setSeg, setSeg_setSeg]

/-- Settles O47: the timer stops, and the first expiry of the period is counted and then noticed. -/
theorem busyLongIsReportedOnce : Obligations.BusyLongIsReportedOnce := by
  intro g s hr served runs v
  have expires := exec_busyLongTimerExpiry hr runs
  refine ⟨fun first => ?_, fun later => by rw [expires, if_pos later]⟩
  have code : segCode g = if g = .A then 0 else 1 := by cases g <;> rfl
  have served' q : ((s.setSeg g ({ v with busyLongTimer := none } : Seg).reportBusyLong).port q).Served := by
    rw [port_setSeg]; exact served q
  rw [expires, if_neg (by rw [first]; exact Bool.false_ne_true), noticeTo_allPorts served', withPorts_setSeg, code]
  simp only [port_setSeg]
  rfl

end Sys2Proof.Machine
end

section
/-! SUPPORT. Losses of arbitration that end at the wire: in START, and while the engine follows (R84, R87, R89, R90). -/
namespace Sys2Proof.Machine

variable {s : State} {g : SegId} {a : Attempt}

/-- The engine has left RUN at the end of an attempt (R77). -/
theorem isRun_endAttempt {first : Option Failure} {second : Option FailKind} {toCheck opens : Bool} :
    ((s.endAttempt g a first second toCheck opens).seg g).engine.isRun = false := by
  rw [State.endAttempt, seg_modSeg, retime_engine]
  cases toCheck <;> rfl

theorem meetCondition_of_not (h : (s.seg g).engine.isRun = false) : s.meetCondition g = s :=
  meetCondition_of_driving fun a running => by rw [running] at h; cases h

theorem meetRestart_of_not (h : (s.seg g).engine.isRun = false) : s.meetRestart g = s := inRun_of_not h

/-- Before the opening start a monitor that has left FREE ends the attempt (R87). -/
theorem meetStart_of_lost (running : (s.seg g).engine = .run a) (unopened : a.timing = none)
    (left : (s.seg g).monitor ≠ .free) :
    s.meetStart g = s.endAttempt g a (some ⟨.arbitrationLost, .address⟩) none false false := by
  rw [State.meetStart, running]
  exact if_pos ⟨unopened, left⟩

/-- A start or a stop seen ends the following after a loss (R89). -/
theorem meetCondition_of_following (running : (s.seg g).engine = .run a) (follows : a.following = true) :
    s.meetCondition g = s.endAttempt g a a.failure none false false := by
  rw [State.meetCondition, running]
  exact if_pos follows

theorem lowSeen_leaves_free (v : Seg) (scl sda : Bool) : (v.lowSeen scl sda).monitor ≠ .free := by
  change (if v.monitor = .busy then Monitor.busy else .settling) ≠ .free
  split <;> nofun

/-- An attempt that ends with a loss, in a command that has seen the lines as `w` (R77, R87, R89). -/
theorem ended_loss {f : Seg → Seg} {w : Seg} {place : Where} (running : (s.seg g).engine = .run a)
    (sees : f (s.seg g) = w) (engine : w.engine = (s.seg g).engine) (list : w.list = (s.seg g).list) :
    s.Ended ((s.modSeg g f).endAttempt g a (some ⟨.arbitrationLost, place⟩) none false false) g a
      (some ⟨.arbitrationLost, place⟩)
      { w with
        engine := .idle
        counters := { w.counters with arbitrationLosses := bump w.counters.arbitrationLosses } } := by
  have ended := ended_modSeg (a := a) (first := some ⟨.arbitrationLost, place⟩) (second := none) (toCheck := false)
    (opens := false) running sees engine list
  rw [Seg.afterRun, Bool.or_false] at ended
  exact ended

/-- The same where no line has been seen anew (R89, R90). -/
theorem ended_loss_now {place : Where} (running : (s.seg g).engine = .run a) :
    s.Ended (s.endAttempt g a (some ⟨.arbitrationLost, place⟩) none false false) g a (some ⟨.arbitrationLost, place⟩)
      { s.seg g with
        engine := .idle
        counters := { (s.seg g).counters with arbitrationLosses := bump (s.seg g).counters.arbitrationLosses } } := by
  have ended := ended_now (a := a) (first := some ⟨.arbitrationLost, place⟩) (second := none) (toCheck := false)
    (opens := false) running
  rw [Seg.afterRun, Bool.or_false] at ended
  exact ended

/-- Settles O43: what the monitor sees is met by the attempt, which ends there with its loss. -/
theorem lossesEndAtTheWire : Obligations.LossesEndAtTheWire := by
  intro g a s hr running v lost
  have started := engine_modSeg (f := fun v => v.monitorStart.see true false) (start_eq v) rfl
  have atStart (place : Where) :=
    ended_loss (place := place) (f := fun v => v.monitorStart.see true false) running (start_eq v) rfl rfl
  refine ⟨fun unopened => ⟨⟨_, ?_, atStart _⟩, fun l low => ⟨_, ?_, ended_loss (f := fun v => v.seeLow l.clock l.data)
      running (seeLow_eq ..) rfl rfl⟩⟩,
    fun place failed follows => ⟨⟨_, ?_, ended_loss_now running⟩, fun opened => ⟨_, ?_, atStart place⟩, fun met => ⟨_, ?_,
      ended_loss (f := fun v => (v.see true true).monitorStop) running (stop_eq v met) rfl rfl⟩⟩⟩
  · have left : ((s.modSeg g fun v => v.monitorStart.see true false).seg g).monitor ≠ .free := by
      rw [seg_modSeg, retime_monitor, start_eq]; nofun
    change execMonitorStartSeen g s = _
    rw [execMonitorStartSeen, running_of hr, meetStart_of_lost (started.trans running) unopened left,
      meetCondition_of_not isRun_endAttempt, meetRestart_of_not isRun_endAttempt]
  · have engine := engine_modSeg (f := fun v => v.seeLow l.clock l.data) (seeLow_eq v _ _) rfl
    have left : ((s.modSeg g fun v => v.seeLow l.clock l.data).seg g).monitor ≠ .free := by
      rw [seg_modSeg, retime_monitor, seeLow_eq]; exact lowSeen_leaves_free _ _ _
    change execLineLow g l s = _
    rw [execLineLow, running_of hr, if_neg low, meetStart_of_lost (engine.trans running) unopened left]
    dsimp only
    rw [State.meetClockLow, inRun_of_not isRun_endAttempt, ite_self]
  · change execAttemptEndsArbitrationLost g s = _
    rw [execAttemptEndsArbitrationLost, running_of hr, inRun_of running, if_pos follows, State.endFollowing, failed]
  · have met : (s.modSeg g fun v => v.monitorStart.see true false).meetStart g = _ :=
      meetStart_of_opened fun b hb => by cases (started.trans running).symm.trans hb; exact opened
    change execMonitorStartSeen g s = _
    rw [execMonitorStartSeen, running_of hr, met, meetCondition_of_following (started.trans running) follows, failed,
      meetRestart_of_not isRun_endAttempt]
  · have engine := engine_modSeg (f := fun v => (v.see true true).monitorStop) (stop_eq v met) rfl
    change execMonitorStopSeen g s = _
    rw [execMonitorStopSeen, running_of hr, if_neg met, meetCondition_of_following (engine.trans running) follows, failed]

end Sys2Proof.Machine
end

section
/-! SUPPORT. SEG_SET, and SEG_RESET outside RUN (R96, R100, R101, R108, R109, R113, R180, R183). -/
namespace Sys2Proof.Machine

variable {s : State} {p : PortId} {e : StoreIx} {tag op gb : Byte} {g : SegId} {v w : Seg}

/-! ## A segment changed, and the reply to it -/

/-- A MREPLY touches no segment (R173). -/
theorem mreply_setSeg {st : MgmtStatus} {reply : List Byte} (served : (s.port p).Served) :
    (s.setSeg g v).mreply p e tag op st reply = (s.mreply p e tag op st reply).setSeg g v := by
  have served' : ((s.setSeg g v).port p).Served := by rw [port_setSeg]; exact served
  rw [mreply_eq_sends served', mreply_eq_sends served, State.sends, State.sends, port_setSeg, setSeg_setPort]

theorem seg_reserved (k : SegId) : (s.reserved p e).seg k = s.seg k := seg_setPort ..

/-- An operation that changes its segment and replies at its port (R154, R173). -/
theorem mreply_modSeg_reserved {st : MgmtStatus} {reply : List Byte} {f : Seg → Seg} (served : (s.port p).Served) :
    ((s.reserved p e).modSeg g f).mreply p e tag op st reply =
      (s.replied p e tag op st reply).setSeg g ((s.seg g).retime (f (s.seg g))) := by
  have reserved : ((s.reserved p e).port p).Served := by rw [State.reserved, port_setPort]; exact served
  rw [modSeg_eq, mreply_setSeg reserved, mreply_reserved served, seg_reserved]

/-! ## The timers of an engine that enters CHECK -/

/-- An engine that did not observe its lines has no check timer that runs on, so an entry into CHECK starts each one from
the levels seen, as the change itself does (R100, R101). -/
theorem retime_startCheckTimers (h : v.engine ≠ .check false) : v.retime w.startCheckTimers = v.retime w := by
  simp [Seg.retime, timerEdge, Seg.quietCond, Seg.dataHeldCond, Seg.clockHeldCond, Seg.busyLongCond, Seg.observing,
    Seg.startCheckTimers, h]

/-- A SEG_SET that is carried out replaces the setup record, and leaves OFF for CHECK or enters OFF (R108, R109). -/
theorem applySetup_becomes (v : Seg) (x : Setup) : v.Becomes { v with
    setup := x
    engine := if x.enable then if v.engine = .off then .check false else v.engine else .off
    inForce := if x.enable ∧ v.engine = .off then x.timing else v.inForce } (v.retime (v.applySetup x)) := by
  by_cases enable : x.enable = true
  · by_cases off : v.engine = .off
    · have applied : v.applySetup x =
          ({ v with setup := x, engine := .check false, inForce := x.timing } : Seg).startCheckTimers := by
        rw [Seg.applySetup, if_pos enable, off]; rfl
      rw [applied, retime_startCheckTimers (by rw [off]; nofun)]
      simp only [enable, off, if_true, and_self]
      exact retime_becomes _ _ rfl rfl rfl rfl
    · have applied : v.applySetup x = { v with setup := x } := by
        rw [Seg.applySetup, if_pos enable]
        dsimp only
        split
        · next h => exact absurd h off
        · rfl
      rw [applied]
      simp only [enable, off, if_true, if_false, and_false]
      exact retime_becomes _ _ rfl rfl rfl rfl
  · have applied : v.applySetup x = { v with setup := x, engine := .off } := if_neg enable
    rw [applied]
    simp only [enable]
    exact retime_becomes _ _ rfl rfl rfl rfl

/-! ## SEG_SET -/

theorem setupOfBytes_of_valid {en bf st bl : Byte} (flag : en.toNat ≤ 1) (wait : bf ≠ 0) (stretch : st ≠ 0) :
    setupOfBytes [en, bf, st, bl] = some ⟨decide (en = 1), ⟨bf.toNat, st.toNat, bl.toNat⟩⟩ := by
  have bits : en = if decide (en = 1) then 1 else 0 := by
    by_cases one : en = 1
    · simp [one]
    · simp only [one, decide_false, Bool.false_eq_true, if_false]
      bv_omega
  rw [setupOfBytes, flagOf_iff.mpr bits]
  exact if_neg (not_or.mpr ⟨wait, stretch⟩)

/-- A disable is refused in RUN and RECOVER, and elsewhere outside OFF while requests or a recovery are outstanding
(R109). -/
theorem disableRefused_iff : v.disableRefused = true ↔ v.engine.isRun = true ∨ v.engine.isRecover = true ∨
    v.engine ≠ .off ∧ (v.list ≠ [] ∨ v.recovery.isSome = true) := by
  cases engine : v.engine <;> simp [Seg.disableRefused, engine, Engine.isRun, Engine.isRecover]

theorem exec_segSet {args : List Byte} {x : Setup} (named : gb = if g = .A then 0 else 1)
    (h : s.Manages p tag (opSegSet :: gb :: args) e) (setup : setupOfBytes args = some x) :
    exec (.segSet p tag (gb :: args)) s = .next
      (if x.enable = false ∧ (s.seg g).disableRefused = true then s.replied p e tag opSegSet .busy []
      else (s.replied p e tag opSegSet .done []).setSeg g ((s.seg g).retime ((s.seg g).applySetup x))) := by
  show execSegSet p tag (gb :: args) s = _
  rw [execSegSet, running_of h.arrives.running, completeMgmt_of_manages h]
  show Host.Outcome.next ((s.reserved p e).segSet p e tag (gb :: args)) = _
  simp only [State.segSet, segOf_iff.mpr named, setup, seg_reserved, mreply_reserved h.arrives.served,
    mreply_modSeg_reserved h.arrives.served]

/-- Settles O29: a disable that is not refused, and every enable, applies the setup record ahead of the reply. -/
theorem segSetReplacesTheSetup : Obligations.SegSetReplacesTheSetup := by
  intro p tag gb en bf st bl g e s h named flag wait stretch v x refused
  have sets := exec_segSet named h (setupOfBytes_of_valid (bl := bl) flag wait stretch)
  refine ⟨fun disable refuses => ?_, fun allowed => ⟨_, sets.trans (congrArg _ (if_neg ?_)), ?_, ?_⟩⟩
  · exact sets.trans (congrArg _ (if_pos ⟨by simp [disable], disableRefused_iff.mpr refuses⟩))
  · rintro ⟨disable, refuses⟩
    have zero : en = 0 := by
      have other : en ≠ 1 := of_decide_eq_false disable
      bv_omega
    exact allowed zero (disableRefused_iff.mp refuses)
  · rw [seg_setSeg]; rfl
  · have enabled : x.enable = true ↔ en = 1 := decide_eq_true_iff
    have disabled : en = 0 ↔ ¬en = 1 := by bv_omega
    rw [seg_setSeg]
    simpa only [enabled, disabled, ite_not] using applySetup_becomes v x

/-! ## SEG_RESET outside RUN -/

/-- An entry into CHECK starts every check timer afresh from the levels seen, also where it ran in CHECK before (R100,
R101). -/
theorem checkTimers_enterCheck (v : Seg) :
    (v.retime v.enterCheck).quietTimer = (if v.scl ∧ v.sda then some v.setup.timing.busFreeWait else none) ∧
    (v.retime v.enterCheck).dataHeldTimer = (if v.scl ∧ ¬v.sda then some 1 else none) ∧
    (v.retime v.enterCheck).clockHeldTimer = (if ¬v.scl then some v.setup.timing.stretchTimeout else none) := by
  cases clock : v.scl <;> cases data : v.sda <;>
    simp [Seg.retime, timerEdge, Seg.quietCond, Seg.dataHeldCond, Seg.clockHeldCond, Seg.observing, Seg.enterCheck,
      Seg.startCheckTimers, Config.dataHeldMs, clock, data]

/-- The busy-long timer runs on through an entry into CHECK out of IDLE or CHECK, unless the timing that comes into force
has no limit, or is the first to have one (R86, R96). -/
theorem busyLongTimer_enterCheck (idle : v.engine.isRun = false) : (v.retime v.enterCheck).busyLongTimer =
    if v.monitor = .busy ∧ v.setup.timing.busyLongLimit ≠ 0 then
      (if v.inForce.busyLongLimit ≠ 0 then v.busyLongTimer else some v.setup.timing.busyLongLimit) else none := by
  have entered : v.enterCheck.busyLongCond = true ↔ v.monitor = .busy ∧ v.setup.timing.busyLongLimit ≠ 0 :=
    busyLongCond_iff.trans (and_congr_right' (and_iff_right rfl))
  have before (busy : v.monitor = .busy) : v.busyLongCond = true ↔ v.inForce.busyLongLimit ≠ 0 :=
    busyLongCond_iff.trans ⟨fun h => h.2.2, fun h => ⟨busy, idle, h⟩⟩
  change timerEdge _ _ v.busyLongTimer v.setup.timing.busyLongLimit = _
  rw [timerEdge, if_congr entered rfl rfl]
  split
  · next h => rw [if_congr (before h.1) rfl rfl]
  · rfl

theorem exec_segReset (h : s.Manages p tag [opSegReset, gb] e) :
    exec (.segReset p tag [gb]) s = .next ((s.reserved p e).segReset p e tag [gb]) := by
  show execSegReset p tag [gb] s = _
  rw [execSegReset, running_of h.arrives.running, completeMgmt_of_manages h]
  rfl

/-- A SEG_RESET in IDLE or CHECK enters CHECK, and is DONE (R113, R183). -/
theorem segReset_of_checking (named : gb = if g = .A then 0 else 1) (served : (s.port p).Served)
    (engine : (s.seg g).engine = .idle ∨ (s.seg g).engine = .check false ∨ (s.seg g).engine = .check true) :
    (s.reserved p e).segReset p e tag [gb] =
      (s.replied p e tag opSegReset .done []).setSeg g ((s.seg g).retime (s.seg g).enterCheck) := by
  rcases engine with engine | engine | engine <;>
    simp only [State.segReset, segOf_iff.mpr named, seg_reserved, engine, mreply_modSeg_reserved served]

/-- A SEG_RESET in RECOVER, FAULT or OFF only replies (R113, R183). -/
theorem segReset_of_other (named : gb = if g = .A then 0 else 1) (served : (s.port p).Served)
    (engine : (s.seg g).engine.isRecover = true ∨ (s.seg g).engine = .fault ∨ (s.seg g).engine = .off) :
    (s.reserved p e).segReset p e tag [gb] = s.replied p e tag opSegReset .noeffect [] := by
  have state : (∃ b, (s.seg g).engine = .recover b) ∨ (s.seg g).engine = .fault ∨ (s.seg g).engine = .off :=
    engine.imp_left fun h => by cases engine : (s.seg g).engine <;> simp [engine, Engine.isRecover] at h ⊢
  rcases state with ⟨_, engine⟩ | engine | engine <;>
    simp only [State.segReset, segOf_iff.mpr named, seg_reserved, engine, mreply_reserved served]

/-- Settles O32: an engine that is idle or checks enters CHECK ahead of the reply; any other outside RUN only replies. -/
theorem segResetOutsideRun : Obligations.SegResetOutsideRun := by
  intro p tag gb g e s named h v
  have served := h.arrives.served
  refine ⟨fun engine => (exec_segReset h).trans (congrArg _ (segReset_of_other named served engine)),
    fun engine => ⟨_, (exec_segReset h).trans (congrArg _ (segReset_of_checking named served engine)), ?_⟩⟩
  have idle : v.engine.isRun = false := by rcases engine with e | e | e <;> rw [e] <;> rfl
  obtain ⟨quiet, dataHeld, clockHeld⟩ := checkTimers_enterCheck v
  rw [seg_setSeg]
  exact ⟨rfl, AgreesButTimers.trans _ _ (retime_agrees v _) (enterCheck_agrees v), quiet, dataHeld, clockHeld,
    busyLongTimer_enterCheck idle⟩

end Sys2Proof.Machine
end

section
/-! SUPPORT. The part in reset (R115, R133). -/
namespace Sys2Proof.Machine

/-- Settles O3: every other command acts only while RESETN is high. -/
theorem resetHoldsThePart : Obligations.ResetHoldsThePart := by
  intro c s low notReset notEnd
  cases c with
  | deviceReset => exact absurd rfl notReset
  | deviceResetEnd a b => exact absurd rfl (notEnd a b)
  | _ => exact if_neg (by rw [low]; exact Bool.false_ne_true)

end Sys2Proof.Machine
end

section
/-! SUPPORT. Recovery: SEG_RECOVER, the release pulses, and the stops of an engine that recovers or closes (R101, R102, R104 to
R106, R111, R164, R182). -/
namespace Sys2Proof.Machine

variable {s : State} {g : SegId} {p : PortId} {e : StoreIx} {tag gb : Byte} {v w : Seg}

/-! ## What the engine makes of its segment -/

theorem enterRecover_eq (v : Seg) : v.enterRecover = v.recovering := by
  rw [Seg.enterRecover, seeLow_eq]; rfl

theorem drivePulse_eq (v : Seg) (stopping sda : Bool) :
    v.drivePulse stopping sda = { v.lowSeen false sda with engine := .recover stopping } := by
  rw [Seg.drivePulse, seeLow_eq]; rfl

theorem giveUpClosing_eq (v : Seg) (scl sda : Bool) :
    v.giveUpClosing scl sda = ({ v.lowSeen scl sda with engine := .check false } : Seg).startCheckTimers := by
  rw [Seg.giveUpClosing, seeLow_eq]; rfl

/-- An engine that did not observe its lines and comes to check them: in the segment it has become, each check timer starts
from the levels seen (R100 to R102). -/
theorem checks_afresh (other : v.engine ≠ .check false) (engine : w.engine = .check false)
    (hq : w.quietTimer = v.quietTimer) (hd : w.dataHeldTimer = v.dataHeldTimer)
    (hc : w.clockHeldTimer = v.clockHeldTimer) (hb : w.busyLongTimer = v.busyLongTimer) :
    v.Becomes w (v.retime w.startCheckTimers) ∧
      (v.retime w.startCheckTimers).quietTimer = (if w.scl ∧ w.sda then some w.inForce.busFreeWait else none) ∧
      (v.retime w.startCheckTimers).dataHeldTimer = (if w.scl ∧ ¬w.sda then some 1 else none) ∧
      (v.retime w.startCheckTimers).clockHeldTimer = (if ¬w.scl then some w.inForce.stretchTimeout else none) := by
  rw [retime_startCheckTimers other]
  have becomes := retime_becomes v w hq hd hc hb
  obtain ⟨_, quiet, dataHeld, clockHeld, _⟩ := id becomes
  exact ⟨becomes, quiet.trans (by simp [engine, other]), dataHeld.trans (by simp [engine, other]),
    clockHeld.trans (by simp [engine, other])⟩

/-- A command that leaves a segment checking afresh. -/
theorem exec_checks {c : Instr} {f : Seg → Seg} (runs : exec c s = .next (s.modSeg g f))
    (starts : f (s.seg g) = w.startCheckTimers) (other : (s.seg g).engine ≠ .check false) (engine : w.engine = .check false)
    (hq : w.quietTimer = (s.seg g).quietTimer) (hd : w.dataHeldTimer = (s.seg g).dataHeldTimer)
    (hc : w.clockHeldTimer = (s.seg g).clockHeldTimer) (hb : w.busyLongTimer = (s.seg g).busyLongTimer) :
    ∃ t, exec c s = .next t ∧ t = s.setSeg g (t.seg g) ∧ (s.seg g).Becomes w (t.seg g) ∧
      (t.seg g).quietTimer = (if w.scl ∧ w.sda then some w.inForce.busFreeWait else none) ∧
      (t.seg g).dataHeldTimer = (if w.scl ∧ ¬w.sda then some 1 else none) ∧
      (t.seg g).clockHeldTimer = (if ¬w.scl then some w.inForce.stretchTimeout else none) := by
  refine ⟨_, runs, ?_⟩
  rw [seg_modSeg, starts]
  exact ⟨by rw [modSeg_eq, starts], checks_afresh other engine hq hd hc hb⟩

/-! ## SEG_RECOVER -/

theorem exec_segRecover (h : s.Manages p tag [opSegRecover, gb] e) :
    exec (.segRecover p tag [gb]) s = .next ((s.reserved p e).segRecover p e tag [gb]) := by
  show execSegRecover p tag [gb] s = _
  rw [execSegRecover, running_of h.arrives.running, completeMgmt_of_manages h]
  rfl

/-- A SEG_RECOVER that the engine refuses only replies (R111, R182). -/
theorem segRecover_of_refused {status : MgmtStatus} (named : gb = if g = .A then 0 else 1) (served : (s.port p).Served)
    (refused : (s.seg g).recoverRefusal = some status) :
    (s.reserved p e).segRecover p e tag [gb] = s.replied p e tag opSegRecover status [] := by
  simp only [State.segRecover, segOf_iff.mpr named, seg_reserved, refused, mreply_reserved served]

/-- One that is carried out keeps its entry reserved for the segment, and the engine enters RECOVER (R104, R111, R164). -/
theorem segRecover_of_allowed (named : gb = if g = .A then 0 else 1) (allowed : (s.seg g).recoverRefusal = none) :
    (s.reserved p e).segRecover p e tag [gb] =
      (s.setPort p { (s.port p).heard with
        store := (s.port p).store.set e.val (some ⟨.mreply, .reserved, 0, [], some g, false⟩) e.isLt }).setSeg g
          ((s.seg g).retime { (s.seg g).recovering with recovery := some ⟨p, tag⟩ }) := by
  have entry : ((s.reserved p e).port p).setEntry e (some { StoreEntry.reserve .mreply with reservedFor := some g }) =
      { (s.port p).heard with
        store := (s.port p).store.set e.val (some ⟨.mreply, .reserved, 0, [], some g, false⟩) e.isLt } := by
    rw [State.reserved, port_setPort, Port.setEntry, Port.setEntry]
    simp only [Vector.set_set]
    rfl
  simp only [State.segRecover, segOf_iff.mpr named, seg_reserved, allowed]
  rw [State.startRecovery, State.modPort, entry, State.reserved, setPort_setPort, modSeg_eq, seg_setPort, enterRecover_eq]
  rfl

/-- Settles O31: the engine state and the health record decide between the refusals and the entry into RECOVER. -/
theorem segRecoverIsDecidedByTheEngine : Obligations.SegRecoverIsDecidedByTheEngine := by
  intro p tag gb g e s named h v
  have served := h.arrives.served
  have refused {status : MgmtStatus} (hv : v.recoverRefusal = some status) :=
    (exec_segRecover h).trans (congrArg _ (segRecover_of_refused named served hv))
  refine ⟨fun busy => refused ?_, fun free off => refused (by simp [Seg.recoverRefusal, free, off]),
    fun free engine => ⟨_, (exec_segRecover h).trans (congrArg _ (segRecover_of_allowed named ?_)), ?_, ?_⟩⟩
  · unfold Seg.recoverRefusal
    rcases busy with outstanding | busy | busy
    · rw [if_pos outstanding]
    · cases engine : v.engine <;> simp [engine, Engine.isRun] at busy ⊢
    · cases engine : v.engine <;> simp [engine, Engine.isRecover] at busy ⊢
  · rcases engine with engine | engine | engine | engine <;> simp [Seg.recoverRefusal, v, free, engine]
  · rw [seg_setSeg]
  · rw [seg_setSeg]; exact retime_becomes _ _ rfl rfl rfl rfl

/-! ## Pulses and stops -/

theorem exec_dataHeldTimerExpiry (hr : s.resetn = true) (runs : (s.seg g).dataHeldTimer.isSome = true) :
    exec (.dataHeldTimerExpiry g) s = .next (s.modSeg g fun v => ({ v with readyOwed := true } : Seg).enterRecover) := by
  change execDataHeldTimerExpiry g s = _
  rw [execDataHeldTimerExpiry, running_of hr, if_pos runs]

/-- A pulse that has ended is counted in the segment that the next one finds (R105). -/
theorem counted_drivePulse {stopping sda : Bool} {n : Nat} :
    (s.setSeg g { s.seg g with pulseCount := n }).modSeg g (fun v => v.drivePulse stopping sda) =
      s.modSeg g fun v => { v.lowSeen false sda with engine := .recover stopping, pulseCount := n } := by
  rw [modSeg_eq, seg_setSeg, setSeg_setSeg, drivePulse_eq, modSeg_eq]
  rfl

theorem exec_releasePulse_high (hr : s.resetn = true) (pulsing : (s.seg g).engine = .recover false) :
    exec (.releasePulse g true) s = .next (s.modSeg g fun v =>
      { v.lowSeen false false with engine := .recover true, pulseCount := (s.seg g).pulseCount + 1 }) := by
  change execReleasePulse g true s = _
  rw [execReleasePulse, running_of hr, if_pos pulsing]
  exact congrArg _ counted_drivePulse

theorem exec_releasePulse_low (hr : s.resetn = true) (pulsing : (s.seg g).engine = .recover false)
    (few : (s.seg g).pulseCount < 8) : exec (.releasePulse g false) s = .next (s.modSeg g fun v =>
      { v.lowSeen false false with engine := .recover false, pulseCount := (s.seg g).pulseCount + 1 }) := by
  change execReleasePulse g false s = _
  rw [execReleasePulse, running_of hr, if_pos pulsing]
  dsimp only
  rw [if_neg Bool.false_ne_true, State.pulseOrFault, if_neg, counted_drivePulse]
  rw [seg_setSeg]
  change ¬9 ≤ _
  dsimp only
  omega

theorem exec_recoveryStop_complete (hr : s.resetn = true) (stopping : (s.seg g).engine = .recover true) :
    exec (.recoveryStopComplete g .complete) s = .next (s.modSeg g fun v => v.ownStop.enterCheck) := by
  change execRecoveryStopComplete g .complete s = _
  rw [execRecoveryStopComplete, running_of hr, if_pos stopping]

/-- A recovery stop that fails with fewer than nine pulses is followed by one more (R106). -/
theorem exec_recoveryStop_fails {how : StopEnd} (hr : s.resetn = true) (stopping : (s.seg g).engine = .recover true)
    (few : (s.seg g).pulseCount < 9) (fails : how ≠ .complete) :
    exec (.recoveryStopComplete g how) s = .next (s.modSeg g fun v => v.drivePulse false false) := by
  change execRecoveryStopComplete g how s = _
  rw [execRecoveryStopComplete, running_of hr, if_pos stopping]
  cases how with
  | complete => exact absurd rfl fails
  | dataNotHigh => exact congrArg _ (if_neg (Nat.not_le_of_lt few))
  | clockFell => exact congrArg _ (if_neg (Nat.not_le_of_lt few))

theorem exec_closingStop_dataNotHigh (hr : s.resetn = true) (closing : (s.seg g).engine = .check true) :
    exec (.closingStopFails g .dataNotHigh) s = .next (s.modSeg g fun v => v.giveUpClosing true false) := by
  change execClosingStopFails g .dataNotHigh s = _
  rw [execClosingStopFails, running_of hr, if_pos closing]

theorem exec_closingStop_clockFell (hr : s.resetn = true) (closing : (s.seg g).engine = .check true) :
    exec (.closingStopFails g .clockFell) s = .next (s.modSeg g fun v => v.giveUpClosing false v.sda) := by
  change execClosingStopFails g .clockFell s = _
  rw [execClosingStopFails, running_of hr, if_pos closing]

/-- Settles O50: each pulse and each stop changes its segment alone. -/
theorem recoveryPulsesAndStops : Obligations.RecoveryPulsesAndStops := by
  intro g s hr v becomes checks
  refine ⟨fun runs => ?_, fun pulsing => ⟨?_, fun few => ?_⟩, fun stopping => ⟨?_, fun few => ⟨?_, ?_⟩⟩,
    fun closing => ⟨?_, ?_⟩⟩
  · exact modSeg_becomes (exec_dataHeldTimerExpiry hr runs) (enterRecover_eq _) rfl rfl rfl rfl
  · exact modSeg_becomes (exec_releasePulse_high hr pulsing) rfl rfl rfl rfl rfl
  · refine modSeg_becomes (exec_releasePulse_low hr pulsing few) ?_ rfl rfl rfl rfl
    rw [← pulsing]; rfl
  · have other : v.engine ≠ .check false := by rw [stopping]; nofun
    exact exec_checks (w := v.stopSeen.checking) (exec_recoveryStop_complete hr stopping)
      (congrArg Seg.enterCheck (ownStop_eq v)) other rfl rfl rfl rfl rfl
  · exact modSeg_becomes (exec_recoveryStop_fails hr stopping few nofun) (drivePulse_eq v false false) rfl rfl rfl rfl
  · exact modSeg_becomes (exec_recoveryStop_fails hr stopping few nofun) (drivePulse_eq v false false) rfl rfl rfl rfl
  · have other : v.engine ≠ .check false := by rw [closing]; nofun
    exact exec_checks (exec_closingStop_dataNotHigh hr closing) (giveUpClosing_eq v true false) other rfl rfl rfl rfl rfl
  · have other : v.engine ≠ .check false := by rw [closing]; nofun
    exact exec_checks (exec_closingStop_clockFell hr closing) (giveUpClosing_eq v false v.sda) other rfl rfl rfl rfl rfl

end Sys2Proof.Machine
end

section
/-! SUPPORT. From CHECK to IDLE (R101 to R103). -/
namespace Sys2Proof.Machine

variable {s : State} {g : SegId} {v w : Seg}

/-- The segment `v` in IDLE, its recovery answered and its readiness announced. -/
def Seg.idled (v : Seg) : Seg := { v with engine := .idle, recovery := none, readyOwed := false }

/-- The entry into IDLE, port by port, whatever of the segment has changed before (R103). -/
theorem enterIdle_setSeg (served : ∀ q, (s.port q).Served) (u : Seg) :
    (s.setSeg g u).enterIdle g = (s.withPorts fun q =>
      let w := (s.port q).recovered q g u.recovery .done
      if u.readyOwed then w.noticedIf .segReady (segCode g) else w).setSeg g (u.retime u.idled) := by
  have entered : (s.setSeg g u).modSeg g (fun v => { v with engine := .idle }) =
      s.setSeg g (u.retime { u with engine := .idle }) := by
    rw [State.modSeg, seg_setSeg, setSeg_setSeg]
  rw [State.enterIdle, entered, answerRecovery_eq (by simpa using served)]
  simp only [port_setSeg, seg_setSeg, setSeg_setSeg, withPorts_setSeg, retime_recovery, retime_readyOwed]
  by_cases ready : u.readyOwed = true
  · rw [if_pos ready, noticeTo_allPorts]
    · simp only [port_setSeg, port_withPorts, withPorts_setSeg, withPorts_withPorts, if_pos ready]
      rfl
    · intro q
      simp only [port_setSeg, port_withPorts]
      exact Port.served_recovered (served q) _ _ _ _
  · have same : u.idled = { u with engine := .idle, recovery := none } := by
      rw [Seg.idled, ← Bool.eq_false_iff.mpr ready]
    simp only [if_neg ready, same]
    rfl

/-- The entry into IDLE does what R103 says when the segment, as its lines are seen, becomes one in IDLE. -/
theorem idled_enterIdle (served : ∀ q, (s.port q).Served) {u w : Seg} (recovery : u.recovery = (s.seg g).recovery)
    (ready : u.readyOwed = (s.seg g).readyOwed) (becomes : (s.seg g).Becomes w.idled (u.retime u.idled)) :
    s.Idled ((s.setSeg g u).enterIdle g) g w := by
  unfold State.Idled
  rw [enterIdle_setSeg served, seg_setSeg, recovery, ready]
  exact ⟨rfl, becomes⟩

/-- A segment whose own stop completes and which then enters IDLE runs none of the timers that levels and states drive (R96,
R101, R102). -/
theorem becomes_idled_of_stop (v : Seg) :
    v.Becomes v.stopSeen.idled ((v.retime v.stopSeen).retime (v.retime v.stopSeen).idled) := by
  obtain ⟨quiet, dataHeld, clockHeld, busyLong⟩ :=
    retime_follows (v.retime v.stopSeen) (v.retime v.stopSeen).idled rfl rfl rfl rfl
  exact ⟨rfl, quiet.trans (by simp [Seg.idled]), dataHeld.trans (by simp [Seg.idled]),
    clockHeld.trans (by simp [Seg.idled]), busyLong.trans (by simp [Seg.idled, Seg.stopSeen])⟩

theorem exec_quietTimerExpiry (hr : s.resetn = true) (runs : (s.seg g).quietTimer.isSome = true) :
    exec (.quietTimerExpiry g) s =
      .next (if (s.seg g).stopOwed then s.modSeg g Seg.beginClosing else s.enterIdle g) := by
  change execQuietTimerExpiry g s = _
  rw [execQuietTimerExpiry, running_of hr, if_pos runs]

theorem exec_closingStopComplete (hr : s.resetn = true) (closing : (s.seg g).engine = .check true) :
    exec (.closingStopComplete g) s =
      .next ((s.setSeg g ((s.seg g).retime (s.seg g).stopSeen)).enterIdle g) := by
  change execClosingStopComplete g s = _
  rw [execClosingStopComplete, running_of hr, if_pos closing, modSeg_eq, ownStop_eq]

/-- Settles O48: a stop that is owed comes between the quiet lines and IDLE. -/
theorem quietLinesReachIdle : Obligations.QuietLinesReachIdle := by
  intro g s hr served v
  refine ⟨fun runs => ⟨fun owes => ⟨_, (exec_quietTimerExpiry hr runs).trans (congrArg _ (if_neg ?_)), ?_⟩, fun owes => ?_⟩,
    fun closing => ⟨_, exec_closingStopComplete hr closing, ?_⟩⟩
  · rw [owes]; nofun
  · have idled := idled_enterIdle (w := v) served (g := g) rfl rfl (retime_becomes _ _ rfl rfl rfl rfl)
    rwa [setSeg_seg] at idled
  · exact modSeg_becomes ((exec_quietTimerExpiry hr runs).trans (congrArg _ (if_pos owes))) (seeLow_eq ..) rfl rfl rfl rfl
  · exact idled_enterIdle served rfl rfl (becomes_idled_of_stop v)

end Sys2Proof.Machine
end

section
/-! SUPPORT. What holds of the store and the queue of one port (R129, R158, R160, R162) also where a message that is being
handled holds an entry for its reply (R163), and what the operations of the outgoing side make of it. -/
namespace Sys2Proof.Machine

/-! ## The stock of a port -/

/-- The store and the queue of a port fit (`Port.StoreFits`), where the entries that `H` names are reserved for the reply of
the message in hand, and so for no segment (R162, R163). -/
structure Port.StockFits (v : Port) (H : StoreIx → Prop) : Prop where
  single : ∀ e, v.queue.count (.entry e) ≤ 1
  listed : ∀ e : StoreIx, .entry e ∈ v.queue ↔ ∃ x, v.store[e] = some x ∧ x.condition ≠ .reserved
  sending : v.tx = .sending → v.queue ≠ []
  head : ∀ e : StoreIx, (∃ x, v.store[e] = some x ∧ x.condition = .inTransmission) ↔
    (v.tx = .sending ∧ v.queue.head? = some (.entry e))
  reserved : ∀ (e : StoreIx) (x : StoreEntry), v.store[e] = some x →
    (x.condition = .reserved ↔ x.reservedFor.isSome = true ∨ H e)
  held : ∀ e, H e → ∃ x, v.store[e] = some x ∧ x.reservedFor = none
  message : ∀ w, v.pendingSwitch = some w → w.point = .messageSent → v.tx = .sending
  reply : ∀ w e, v.pendingSwitch = some w → w.point = .replySent e →
    ∃ x, v.store[e] = some x ∧ x.kind = .mreply ∧ x.condition ≠ .reserved

/-- The segment whose recovery an entry is reserved for, if it is reserved for one (R162, R164). -/
def Port.booked (v : Port) (e : StoreIx) : Option SegId := v.store[e].bind StoreEntry.reservedFor

section
variable {v w : Port} {H H' : StoreIx → Prop} {e f : StoreIx} {x : StoreEntry} {item : Item} {rest : List Item} {g : SegId}

theorem store_set (v : Port) (y : Option StoreEntry) :
    (v.store.set e.val y e.isLt)[f] = if f = e then y else v.store[f] := by
  simp only [Fin.getElem_fin, Vector.getElem_set, Fin.ext_iff, eq_comm]

theorem booked_eq_some : v.booked e = some g ↔ ∃ x, v.store[e] = some x ∧ x.reservedFor = some g := by
  unfold Port.booked; exact Option.bind_eq_some_iff

/-- With no entry held, the stock fits exactly when the store does. -/
theorem storeFits_iff : v.StoreFits ↔ v.StockFits fun _ => False := by
  have listed (e : StoreIx) : ((v.store[e].map fun x => decide (x.condition ≠ .reserved)) = some true) ↔
      ∃ x, v.store[e] = some x ∧ x.condition ≠ .reserved := by simp [Option.map_eq_some_iff]
  have counted (e : StoreIx) (p : Prop) [Decidable p] : v.queue.count (.entry e) = (if p then 1 else 0) ↔
      v.queue.count (.entry e) ≤ 1 ∧ (.entry e ∈ v.queue ↔ p) := by
    rw [← List.count_pos_iff]
    by_cases hp : p
    · rw [if_pos hp, iff_true_right hp]; omega
    · rw [if_neg hp, iff_false_right hp]; omega
  constructor
  · intro h
    refine ⟨fun e => ((counted e _).mp (h.counted e)).1, fun e => ((counted e _).mp (h.counted e)).2.trans (listed e),
      h.sending, fun e => ?_, fun e x hx => ?_, nofun, fun w hw hp => ?_, fun w e hw hp => ?_⟩
    · rw [← h.head, Option.map_eq_some_iff]
    · rw [or_false]; exact h.reserved e x hx
    · have := h.switch w hw; rwa [hp] at this
    · have := h.switch w hw; rwa [hp] at this
  · intro h
    refine ⟨fun e => (counted e _).mpr ⟨h.single e, (h.listed e).trans (listed e).symm⟩, h.sending, fun e => ?_,
      fun e x hx => ?_, fun w hw => ?_⟩
    · rw [← h.head, Option.map_eq_some_iff]
    · have := h.reserved e x hx; rwa [or_false] at this
    · split
      · next hp => exact h.message w hw hp
      · next e hp => exact h.reply w e hw hp

/-- The stock is made of the queue, the store, the state of the transmitter and the pending switch. -/
theorem Port.StockFits.of_same (h : v.StockFits H) (queue : w.queue = v.queue) (store : w.store = v.store) (tx : w.tx = v.tx)
    (switch : w.pendingSwitch = v.pendingSwitch) : w.StockFits H := by
  obtain ⟨single, listed, sending, head, reserved, held, message, reply⟩ := h
  constructor <;> simp only [queue, store, tx, switch] <;> assumption

theorem Port.StockFits.congr (h : v.StockFits H) (same : ∀ e, H' e ↔ H e) : v.StockFits H' := by
  rwa [show H' = H from funext fun e => propext (same e)]

/-- A pending switch that is dropped leaves the stock (R124, R130). -/
theorem Port.StockFits.unswitched (h : v.StockFits H) (queue : w.queue = v.queue) (store : w.store = v.store)
    (tx : w.tx = v.tx) (switch : w.pendingSwitch = none) : w.StockFits H := by
  obtain ⟨single, listed, sending, head, reserved, held, _, _⟩ := h
  constructor <;> simp only [queue, store, tx, switch]
  · exact single
  · exact listed
  · exact sending
  · exact head
  · exact reserved
  · exact held
  · exact nofun
  · exact nofun

/-- A transmitter that sends nothing may be in another such state, where no switch waits for its message (R119). -/
theorem Port.StockFits.silent (h : v.StockFits H) (old : v.tx ≠ .sending) (queue : w.queue = v.queue)
    (store : w.store = v.store) (new : w.tx ≠ .sending) (switch : w.pendingSwitch = v.pendingSwitch) : w.StockFits H := by
  obtain ⟨single, listed, _, head, reserved, held, message, reply⟩ := h
  constructor <;> simp only [queue, store, switch]
  · exact single
  · exact listed
  · exact fun e => absurd e new
  · exact fun e => (head e).trans (iff_of_false (fun k => old k.1) fun k => new k.1)
  · exact reserved
  · exact held
  · exact fun w hw hp => absurd (message w hw hp) old
  · exact reply

/-! ## An item joins the queue (R159) -/

theorem head?_append_of_sending (h : v.StockFits H) (ht : v.tx = .sending) : (v.queue ++ [item]).head? = v.queue.head? := by
  cases hq : v.queue with
  | nil => exact absurd hq (h.sending ht)
  | cons i l => rfl

/-- A RESULT joins the tail of the queue. -/
theorem Port.StockFits.appendResult (h : v.StockFits H) (i : SlotId) :
    ({ v with queue := v.queue ++ [.result i] } : Port).StockFits H where
  single e := by simpa [List.count_append] using h.single e
  listed e := by simpa using h.listed e
  sending _ := by simp
  head e := (h.head e).trans (and_congr_right fun ht => by rw [head?_append_of_sending h ht])
  reserved := h.reserved
  held := h.held
  message := h.message
  reply := h.reply

/-- A composed message joins it, from an entry that had none (R162). -/
theorem Port.StockFits.appendEntry (h : v.StockFits H) (free : .entry e ∉ v.queue) (ready : x.condition = .ready)
    (unbooked : x.reservedFor = none) :
    ({ v.setEntry e (some x) with queue := v.queue ++ [.entry e] } : Port).StockFits fun f => H f ∧ f ≠ e where
  single f := by
    by_cases hf : f = e
    · subst hf
      simp [List.count_append, List.count_eq_zero_of_not_mem free]
    · simpa [List.count_append, List.count_singleton, Ne.symm hf] using h.single f
  listed f := by
    simp only [Port.setEntry, store_set, List.mem_append, h.listed]
    by_cases hf : f = e <;> simp [hf, ready]
  sending _ := by simp
  head f := by
    simp only [Port.setEntry, store_set]
    by_cases hf : f = e
    · subst hf
      refine iff_of_false (by simp [ready]) fun ⟨ht, hh⟩ => free ?_
      rw [head?_append_of_sending h ht] at hh
      exact List.mem_of_mem_head? hh
    · rw [if_neg hf]
      exact (h.head f).trans (and_congr_right fun ht => by rw [head?_append_of_sending h ht])
  reserved f y := by
    simp only [Port.setEntry, store_set]
    by_cases hf : f = e
    · rw [if_pos hf]; rintro ⟨⟩; simp [ready, unbooked, hf]
    · rw [if_neg hf]; simpa [hf] using h.reserved f y
  held f hf := by
    simp only [Port.setEntry, store_set, if_neg hf.2]
    exact h.held f hf.1
  message := h.message
  reply w f hw hp := by
    have waits := h.reply w f hw hp
    have other : f ≠ e := by
      rintro rfl
      obtain ⟨y, hy, _, hc⟩ := waits
      exact free ((h.listed f).mpr ⟨y, hy, hc⟩)
    simpa only [Port.setEntry, store_set, if_neg other] using waits

/-! ## The transmitter takes up the head item (R160, R162) -/

theorem not_sent_of_idle (h : v.StockFits H) (ht : v.tx = .idle) {y : StoreEntry} (hy : v.store[f] = some y) :
    y.condition ≠ .inTransmission := fun hc => by
  have := ((h.head f).mp ⟨y, hy, hc⟩).1
  rw [ht] at this; cases this

theorem Port.StockFits.begun (h : v.StockFits H) (ht : v.tx = .idle) (hq : v.queue = item :: rest) (frame : List Byte) :
    ({ v.markSending item with tx := .sending, txFrame := frame } : Port).StockFits H := by
  have unsent w (hw : v.pendingSwitch = some w) : w.point ≠ .messageSent := fun hp => by
    have := h.message w hw hp
    rw [ht] at this; cases this
  cases item with
  | result i =>
    refine ⟨h.single, h.listed, fun _ => (by rw [hq]; simp : v.queue ≠ []), fun e => ?_, h.reserved, h.held,
      fun w hw hp => absurd hp (unsent w hw), h.reply⟩
    change _ ↔ _ ∧ v.queue.head? = _
    rw [hq]
    exact iff_of_false (fun ⟨y, hy, hc⟩ => not_sent_of_idle h ht hy hc) (by simp)
  | entry e =>
    obtain ⟨x, hx, hc⟩ := (h.listed e).mp (by rw [hq]; exact List.mem_cons_self)
    have mark : v.markSending (.entry e) = v.setEntry e (some { x with condition := .inTransmission }) := by
      rw [Port.markSending, hx]; rfl
    rw [mark]
    refine ⟨h.single, fun f => (h.listed f).trans ?_, fun _ => (by rw [hq]; simp : v.queue ≠ []), fun f => ?_, fun f y => ?_,
      fun f hf => ?_, fun w hw hp => absurd hp (unsent w hw), fun w f hw hp => ?_⟩
    · simp only [Port.setEntry, store_set]
      by_cases hf : f = e
      · subst hf; simp [hx, hc]
      · rw [if_neg hf]
    · change _ ↔ _ ∧ v.queue.head? = _
      simp only [Port.setEntry, store_set, hq, List.head?_cons]
      by_cases hf : f = e
      · simp [hf]
      · rw [if_neg hf]
        exact iff_of_false (fun ⟨y, hy, hc⟩ => not_sent_of_idle h ht hy hc) (by simp [Ne.symm hf])
    · simp only [Port.setEntry, store_set]
      by_cases hf : f = e
      · subst hf
        rw [if_pos rfl]
        rintro ⟨⟩
        have := h.reserved f x hx
        exact iff_of_false nofun (mt this.mpr hc)
      · rw [if_neg hf]; exact h.reserved f y
    · simp only [Port.setEntry, store_set]
      by_cases hf' : f = e
      · subst hf'
        exact absurd ((h.reserved f x hx).mpr (.inr hf)) hc
      · rw [if_neg hf']; exact h.held f hf
    · obtain ⟨y, hy, hk, hc'⟩ := h.reply w f hw hp
      simp only [Port.setEntry, store_set]
      by_cases hf : f = e
      · subst hf
        rw [hx] at hy; cases hy
        exact ⟨_, if_pos rfl, hk, nofun⟩
      · exact ⟨y, (if_neg hf).trans hy, hk, hc'⟩

theorem Port.StockFits.takesUp (h : v.StockFits H) (ht : v.tx = .idle) (frame : SlotId → List Byte) :
    (v.takesUp frame).StockFits H := by
  cases hq : v.queue with
  | nil => rwa [Port.takesUp, hq]
  | cons item rest => rw [takesUp_cons frame hq]; exact h.begun ht hq _

/-! ## A message sent, a RESULT queued -/

/-- A message sent on a served port joins the queue, and an IDLE transmitter takes it up (R159, R160). -/
theorem sends_eq (served : v.Served) (frame : SlotId → List Byte) : v.sends e x =
    if v.tx = .idle then
      ({ v.setEntry e (some x) with queue := v.queue ++ [.entry e] } : Port).takesUp frame
    else { v.setEntry e (some x) with queue := v.queue ++ [.entry e] } := by
  unfold Port.sends
  split
  · next ht =>
    rw [takesUp_cons (item := .entry e) (rest := []) frame (by simp [served ht])]
    simp [Port.markSending, Port.setEntry, Port.frameAt]
  · rfl

theorem queued_eq (served : v.Served) {i : SlotId} {frame : List Byte} : v.queued i frame =
    if v.tx = .idle then ({ v with queue := v.queue ++ [.result i] } : Port).takesUp fun _ => frame
    else { v with queue := v.queue ++ [.result i] } := by
  unfold Port.queued
  split
  · next ht =>
    rw [takesUp_cons (item := .result i) (rest := []) _ (by simp [served ht])]
    rfl
  · rfl

theorem Port.StockFits.sends (h : v.StockFits H) (served : v.Served) (free : .entry e ∉ v.queue)
    (ready : x.condition = .ready) (unbooked : x.reservedFor = none) :
    (v.sends e x).StockFits fun f => H f ∧ f ≠ e := by
  have joined := h.appendEntry free ready unbooked
  rw [sends_eq served fun _ => []]
  split
  · next ht => exact joined.takesUp ht _
  · exact joined

theorem Port.StockFits.queued (h : v.StockFits H) (served : v.Served) (i : SlotId) (frame : List Byte) :
    (v.queued i frame).StockFits H := by
  have joined := h.appendResult i
  rw [queued_eq served]
  split
  · next ht => exact joined.takesUp ht _
  · exact joined

/-! ## Room for a message (R163) -/

theorem freeEntry_spec (hf : v.freeEntry = some e) : v.store[e] = none := by
  simpa using List.find?_some hf

/-- An entry that holds no message, or none yet, is not in the queue. -/
theorem not_queued (h : v.StockFits H) (free : ∀ x, v.store[e] = some x → x.condition = .reserved) : .entry e ∉ v.queue :=
  fun hm => by
    obtain ⟨x, hx, hc⟩ := (h.listed e).mp hm
    exact hc (free x hx)

theorem not_queued_of_free (h : v.StockFits H) (free : v.store[e] = none) : .entry e ∉ v.queue :=
  not_queued h fun x hx => by rw [free] at hx; cases hx

theorem not_queued_of_held (h : v.StockFits H) (holds : H e) : .entry e ∉ v.queue :=
  not_queued h fun x hx => (h.reserved e x hx).mpr (.inr holds)

theorem not_queued_of_booked (h : v.StockFits H) (booked : v.booked e = some g) : .entry e ∉ v.queue :=
  not_queued h fun x hx => by
    obtain ⟨y, hy, hg⟩ := booked_eq_some.mp booked
    rw [hy] at hx; cases hx
    exact (h.reserved e x hy).mpr (.inl (by rw [hg]; rfl))

theorem not_held_of_free (h : v.StockFits H) (free : v.store[e] = none) : ¬H e := fun hh => by
  obtain ⟨x, hx, _⟩ := h.held e hh
  rw [free] at hx; cases hx

/-- The oldest ready NOTICE is one. -/
theorem oldestNotice_spec (ho : v.oldestNotice = some e) :
    ∃ x, v.store[e] = some x ∧ x.kind = .notice ∧ x.condition = .ready := by
  obtain ⟨item, _, hi⟩ := List.exists_of_findSome?_eq_some ho
  cases item with
  | result i => cases hi
  | entry f =>
    dsimp only at hi
    split at hi
    · next hn =>
      cases hi
      unfold Port.readyNotice at hn
      split at hn
      · next x hx => exact ⟨x, hx, of_decide_eq_true hn⟩
      · cases hn
    · cases hi

/-- A ready NOTICE is dropped (R163): it is not the head item that is being sent, and no switch waits for it. -/
theorem Port.StockFits.dropNotice (h : v.StockFits H) (hx : v.store[e] = some x) (notice : x.kind = .notice)
    (ready : x.condition = .ready) : (v.dropNotice e).StockFits H := by
  have queue : (v.dropNotice e).queue = v.queue.filter fun item => decide (item ≠ .entry e) := rfl
  have store (f : StoreIx) : (v.dropNotice e).store[f] = if f = e then none else v.store[f] := store_set v none
  have kept {f : StoreIx} {y : StoreEntry} (hy : (v.dropNotice e).store[f] = some y) : f ≠ e ∧ v.store[f] = some y := by
    rw [store] at hy
    split at hy
    · cases hy
    · next hf => exact ⟨hf, hy⟩
  have head (ht : v.tx = .sending) : (v.dropNotice e).queue.head? = v.queue.head? := by
    rw [queue]
    cases hq : v.queue with
    | nil => rfl
    | cons item rest =>
      rw [List.filter_cons_of_pos, List.head?_cons, List.head?_cons]
      refine decide_eq_true ?_
      rintro rfl
      obtain ⟨y, hy, hc⟩ := (h.head e).mpr ⟨ht, by rw [hq]; rfl⟩
      rw [hx] at hy; cases hy
      rw [ready] at hc; cases hc
  refine ⟨fun f => ?_, fun f => ?_, fun ht hn => ?_, fun f => ?_, fun f y hy => ?_, fun f hf => ?_, h.message,
    fun w f hw hp => ?_⟩
  · rw [queue]; exact (List.Sublist.count_le _ List.filter_sublist).trans (h.single f)
  · rw [queue, List.mem_filter, h.listed, store]
    by_cases hf : f = e <;> simp [hf]
  · have ht' : v.tx = .sending := ht
    have := head ht'
    rw [hn] at this
    exact h.sending ht' (List.head?_eq_none_iff.mp this.symm)
  · rw [store]
    by_cases hf : f = e
    · subst hf
      rw [if_pos rfl]
      refine iff_of_false (by simp) fun ⟨ht, hh⟩ => ?_
      have ht' : v.tx = .sending := ht
      rw [head ht'] at hh
      obtain ⟨y, hy, hc⟩ := (h.head f).mpr ⟨ht', hh⟩
      rw [hx] at hy; cases hy
      rw [ready] at hc; cases hc
    · rw [if_neg hf]
      exact (h.head f).trans (and_congr_right fun ht => by rw [head ht])
  · obtain ⟨_, hy⟩ := kept hy
    exact h.reserved f y hy
  · have other : f ≠ e := by
      rintro rfl
      have := (h.reserved f x hx).mpr (.inr hf)
      rw [ready] at this; cases this
    rw [store, if_neg other]
    exact h.held f hf
  · obtain ⟨y, hy, hk, hc⟩ := h.reply w f hw hp
    have other : f ≠ e := by
      rintro rfl
      rw [hx] at hy; cases hy
      rw [notice] at hk; cases hk
    exact ⟨y, by rw [store, if_neg other]; exact hy, hk, hc⟩

theorem store_dropNotice (v : Port) : (v.dropNotice e).store[e] = none := (store_set v none).trans (if_pos rfl)

/-- A message sent from an entry that was free leaves the entries held as they were. -/
theorem Port.StockFits.sendsFree (h : v.StockFits H) (served : v.Served) (free : v.store[e] = none)
    (ready : x.condition = .ready) (unbooked : x.reservedFor = none) : (v.sends e x).StockFits H :=
  (h.sends served (not_queued_of_free h free) ready unbooked).congr fun f =>
    (and_iff_left_of_imp fun hf (he : f = e) => not_held_of_free h free (he ▸ hf)).symm

theorem served_dropNotice (served : v.Served) : (v.dropNotice e).Served := fun ht => by
  change v.queue.filter _ = []
  rw [served ht]; rfl

/-- A notice leaves the stock fitted: it is sent, in place of another or not, or dropped (R165). -/
theorem Port.StockFits.noticed (h : v.StockFits H) (served : v.Served) (kind : NoticeKind) (arg : Byte) :
    (v.noticed kind arg).StockFits H := by
  have numbered : ({ v with noticeSeq := v.noticeSeq + 1 } : Port).StockFits H := h.of_same rfl rfl rfl rfl
  unfold Port.noticed
  dsimp only
  split
  · next e he => exact numbered.sendsFree served (freeEntry_spec he) rfl rfl
  · split
    · next e he =>
      obtain ⟨x, hx, notice, ready⟩ := oldestNotice_spec he
      exact (numbered.dropNotice hx notice ready).sendsFree (served_dropNotice served) (store_dropNotice _) rfl rfl
    · exact h.of_same rfl rfl rfl rfl

end

end Sys2Proof.Machine
end

section
/-! SUPPORT. What holds of one port, line and stock (R119 to R127, R136, R158 to R165), and what the operations of its outgoing
side keep of it. -/
namespace Sys2Proof.Machine

/-- The line of a port fits, and its stock does with the entries held that `H` names. -/
structure Port.Fits (v : Port) (H : StoreIx → Prop) : Prop where
  line : v.LineFits
  stock : v.StockFits H

section
variable {v w : Port} {H H' : StoreIx → Prop} {e f : StoreIx} {x : StoreEntry} {item : Item} {rest : List Item} {g : SegId}

theorem Port.Fits.served (h : v.Fits H) : v.Served := h.line.served

theorem Port.Fits.congr (h : v.Fits H) (same : ∀ e, H' e ↔ H e) : v.Fits H' := ⟨h.line, h.stock.congr same⟩

/-! ## What the outgoing side leaves of the line -/

/-- From `v` to `w` the receive side of a port is the same, and its transmitter goes on or begins to send. -/
structure Port.KeepsLine (v w : Port) : Prop where
  receiver : w.receiver = v.receiver
  assembly : w.assembly = v.assembly
  gap : w.gapTimer = v.gapTimer
  space : w.spaceTimer = v.spaceTimer
  tx : w.tx = v.tx ∨ v.tx = .idle ∧ w.tx = .sending

theorem Port.KeepsLine.trans {u : Port} (k : v.KeepsLine w) (k' : w.KeepsLine u) : v.KeepsLine u where
  receiver := k'.receiver.trans k.receiver
  assembly := k'.assembly.trans k.assembly
  gap := k'.gap.trans k.gap
  space := k'.space.trans k.space
  tx := by
    rcases k'.tx with same | ⟨was, now⟩
    · rw [same]; exact k.tx
    · rcases k.tx with same | ⟨_, sends⟩
      · exact .inr ⟨same ▸ was, now⟩
      · rw [sends] at was; cases was

/-- A line whose receive side stays fits on, once its transmitter has been served. -/
theorem Port.LineFits.of_keeps (h : v.LineFits) (k : v.KeepsLine w) (served : w.Served) : w.LineFits where
  buffer := by rw [k.assembly]; exact h.buffer
  lead := by rw [k.assembly]; exact h.lead
  length := by rw [k.assembly]; exact h.length
  gap := by rw [k.gap, k.receiver]; exact h.gap
  space := by rw [k.space, k.receiver]; exact h.space
  watch := by rw [k.space, k.receiver]; exact h.watch
  hold := by
    rw [k.receiver, k.assembly]
    intro hold
    obtain ⟨idle, tx⟩ := h.hold hold
    refine ⟨idle, ?_⟩
    rcases k.tx with same | ⟨was, _⟩
    · rwa [same]
    · rw [was] at tx; rcases tx with tx | tx <;> cases tx
  held := by
    rw [k.receiver]
    intro held
    rcases k.tx with same | ⟨_, now⟩
    · exact h.held (same ▸ held)
    · rw [now] at held; cases held
  served := served

theorem keepsLine_sends (v : Port) (e : StoreIx) (x : StoreEntry) : v.KeepsLine (v.sends e x) := by
  unfold Port.sends
  split
  · next ht => exact ⟨rfl, rfl, rfl, rfl, .inr ⟨ht, rfl⟩⟩
  · exact ⟨rfl, rfl, rfl, rfl, .inl rfl⟩

theorem keepsLine_queued (v : Port) (i : SlotId) (frame : List Byte) : v.KeepsLine (v.queued i frame) := by
  unfold Port.queued
  split
  · next ht => exact ⟨rfl, rfl, rfl, rfl, .inr ⟨ht, rfl⟩⟩
  · exact ⟨rfl, rfl, rfl, rfl, .inl rfl⟩

theorem keepsLine_noticed (v : Port) (kind : NoticeKind) (arg : Byte) : v.KeepsLine (v.noticed kind arg) := by
  have numbered : v.KeepsLine { v with noticeSeq := v.noticeSeq + 1 } := ⟨rfl, rfl, rfl, rfl, .inl rfl⟩
  unfold Port.noticed
  dsimp only
  split
  · exact numbered.trans (keepsLine_sends _ _ _)
  · split
    · next e _ =>
      have dropped : v.KeepsLine (({ v with noticeSeq := v.noticeSeq + 1 } : Port).dropNotice e) :=
        ⟨rfl, rfl, rfl, rfl, .inl rfl⟩
      exact dropped.trans (keepsLine_sends _ _ _)
    · exact ⟨rfl, rfl, rfl, rfl, .inl rfl⟩

/-! ## What it makes of the entries that are reserved for recoveries -/

theorem booked_setEntry (v : Port) (y : Option StoreEntry) :
    (v.setEntry e y).booked f = if f = e then y.bind StoreEntry.reservedFor else v.booked f := by
  unfold Port.booked Port.setEntry
  rw [store_set]
  split <;> rfl

theorem booked_of_store {v w : Port} (store : w.store = v.store) : w.booked = v.booked := by
  funext f; unfold Port.booked; rw [store]

theorem booked_markSending (v : Port) (item : Item) : (v.markSending item).booked = v.booked := by
  cases item with
  | result i => rfl
  | entry e =>
    funext f
    rw [Port.markSending, booked_setEntry]
    split
    · next hf => rw [hf, Port.booked]; cases v.store[e] <;> rfl
    · rfl

theorem booked_takesUp (v : Port) (frame : SlotId → List Byte) : (v.takesUp frame).booked = v.booked := by
  cases hq : v.queue with
  | nil => rw [Port.takesUp, hq]
  | cons item rest =>
    rw [takesUp_cons frame hq]
    exact (booked_of_store rfl).trans (booked_markSending v item)

theorem booked_sends (v : Port) (e f : StoreIx) (x : StoreEntry) :
    (v.sends e x).booked f = if f = e then x.reservedFor else v.booked f := by
  unfold Port.sends
  split <;> exact booked_setEntry v (some _)

theorem booked_queued (v : Port) (i : SlotId) (frame : List Byte) : (v.queued i frame).booked = v.booked := by
  unfold Port.queued
  split <;> rfl

/-- A message sent from an entry that is reserved for no segment changes none that is. -/
theorem booked_sends_of_unbooked (unbooked : v.booked e = none) (plain : x.reservedFor = none) :
    (v.sends e x).booked = v.booked := by
  funext f
  rw [booked_sends]
  split
  · next hf => rw [plain, hf, unbooked]
  · rfl

theorem booked_of_free (free : v.store[e] = none) : v.booked e = none := by rw [Port.booked, free]; rfl

theorem booked_of_held (h : v.StockFits H) (holds : H e) : v.booked e = none := by
  obtain ⟨x, hx, plain⟩ := h.held e holds
  rw [Port.booked, hx]; exact plain

/-- An entry that is not reserved is reserved for no segment (R162). -/
theorem booked_of_composed (h : v.StockFits H) (hx : v.store[e] = some x) (composed : x.condition ≠ .reserved) :
    v.booked e = none := by
  rw [Port.booked, hx]
  exact Option.not_isSome_iff_eq_none.mp fun hs => composed ((h.reserved e x hx).mpr (.inl hs))

theorem booked_dropNotice (h : v.StockFits H) (he : v.oldestNotice = some e) : (v.dropNotice e).booked = v.booked := by
  obtain ⟨x, hx, _, ready⟩ := oldestNotice_spec he
  funext f
  refine (booked_setEntry v none).trans ?_
  split
  · next hf => rw [hf, booked_of_composed h hx (by rw [ready]; nofun)]; rfl
  · rfl

theorem booked_noticed (h : v.StockFits H) (kind : NoticeKind) (arg : Byte) : (v.noticed kind arg).booked = v.booked := by
  have numbered : ({ v with noticeSeq := v.noticeSeq + 1 } : Port).StockFits H := h.of_same rfl rfl rfl rfl
  have same : ({ v with noticeSeq := v.noticeSeq + 1 } : Port).booked = v.booked := rfl
  unfold Port.noticed
  dsimp only
  split
  · next e he =>
    refine (booked_sends_of_unbooked (booked_of_free ?_) rfl).trans same
    exact freeEntry_spec he
  · split
    · next e he =>
      exact ((booked_sends_of_unbooked (booked_of_free (store_dropNotice _)) rfl).trans
        (booked_dropNotice numbered he)).trans same
    · rfl

/-! ## The outgoing side keeps a port fitted -/

theorem Port.Fits.sends (h : v.Fits H) (free : .entry e ∉ v.queue) (ready : x.condition = .ready)
    (plain : x.reservedFor = none) : (v.sends e x).Fits fun f => H f ∧ f ≠ e :=
  ⟨h.line.of_keeps (keepsLine_sends v e x) (Port.served_sends v e x), h.stock.sends h.served free ready plain⟩

theorem Port.Fits.queued (h : v.Fits H) (i : SlotId) (frame : List Byte) : (v.queued i frame).Fits H :=
  ⟨h.line.of_keeps (keepsLine_queued v i frame) (Port.served_queued v i frame), h.stock.queued h.served i frame⟩

theorem Port.Fits.queuedAll (h : v.Fits H) (l : List SlotId) (frame : SlotId → List Byte) :
    (v.queuedAll l frame).Fits H ∧ (v.queuedAll l frame).booked = v.booked := by
  unfold Port.queuedAll
  induction l generalizing v with
  | nil => exact ⟨h, rfl⟩
  | cons i l ih =>
    obtain ⟨fits, booked⟩ := ih (h.queued i (frame i))
    exact ⟨fits, booked.trans (booked_queued v i (frame i))⟩

theorem Port.Fits.noticed (h : v.Fits H) (kind : NoticeKind) (arg : Byte) : (v.noticed kind arg).Fits H :=
  ⟨h.line.of_keeps (keepsLine_noticed v kind arg) (Port.served_noticed h.served kind arg), h.stock.noticed h.served kind arg⟩

theorem Port.Fits.noticedIf (h : v.Fits H) (kind : NoticeKind) (arg : Byte) :
    (v.noticedIf kind arg).Fits H ∧ (v.noticedIf kind arg).booked = v.booked := by
  unfold Port.noticedIf
  split
  · exact ⟨h.noticed kind arg, booked_noticed h.stock kind arg⟩
  · exact ⟨h, rfl⟩

theorem reservedEntry_spec (he : v.reservedEntry g = some e) : v.booked e = some g := by
  have found := List.find?_some he
  split at found
  · next x hx => exact booked_eq_some.mpr ⟨x, hx, (of_decide_eq_true found).2⟩
  · cases found

/-- The entry that is looked for on behalf of a segment is one reserved for it, if there is one (R162, R164). -/
theorem reservedEntry_isSome (h : v.StockFits H) :
    (v.reservedEntry g).isSome = true ↔ ∃ e, v.booked e = some g := by
  refine ⟨fun hs => ?_, fun ⟨e, he⟩ => ?_⟩
  · obtain ⟨e, he⟩ := Option.isSome_iff_exists.mp hs
    exact ⟨e, reservedEntry_spec he⟩
  · obtain ⟨x, hx, hg⟩ := booked_eq_some.mp he
    refine List.find?_isSome.mpr ⟨e, (by decide : ∀ e, e ∈ allEntries) e, ?_⟩
    rw [hx]
    exact decide_eq_true ⟨(h.reserved e x hx).mpr (.inl (by rw [hg]; rfl)), hg⟩

/-- The reply to a recovery is sent from the one entry that was reserved for it (R103, R107, R164). -/
theorem Port.Fits.recovered (h : v.Fits H) (q : PortId) (g : SegId) {r : Option Recovery} (status : MgmtStatus)
    (asked : ∀ e, v.booked e = some g → r.map Recovery.port = some q)
    (once : ∀ e f, v.booked e = some g → v.booked f = some g → e = f) :
    (v.recovered q g r status).Fits H ∧
      ∀ f, (v.recovered q g r status).booked f = if v.booked f = some g then none else v.booked f := by
  have kept (none_booked : ∀ e, v.booked e ≠ some g) :
      v.Fits H ∧ ∀ f, v.booked f = if v.booked f = some g then none else v.booked f :=
    ⟨h, fun f => (if_neg (none_booked f)).symm⟩
  unfold Port.recovered
  split
  · exact kept fun e he => by cases asked e he
  · next r =>
    split
    · split
      · next e he =>
        have booked := reservedEntry_spec he
        have free := not_queued_of_booked h.stock booked
        refine ⟨(h.sends free rfl rfl).congr fun f => (and_iff_left_of_imp ?_).symm, fun f => ?_⟩
        · rintro hf rfl
          rw [booked_of_held h.stock hf] at booked; cases booked
        · rw [booked_sends]
          by_cases hf : f = e
          · rw [if_pos hf, hf, if_pos booked]; rfl
          · rw [if_neg hf, if_neg fun hb => hf (once f e hb booked)]
      · next he =>
        refine kept fun e hb => ?_
        have := (reservedEntry_isSome h.stock).mpr ⟨e, hb⟩
        rw [he] at this; cases this
    · next hq => exact kept fun e he => hq (Option.some.inj (asked e he))

/-- The gate finds room (R163): the entry for the reply is held from then on. -/
theorem Port.Fits.reserves (h : v.Fits H) (room : v.room = some (e, w)) (kind : ShortKind) :
    (w.setEntry e (some (StoreEntry.reserve kind))).Fits (fun f => H f ∨ f = e) ∧
      (w.setEntry e (some (StoreEntry.reserve kind))).booked = v.booked := by
  have found : w.Fits H ∧ w.store[e] = none ∧ w.booked = v.booked := by
    unfold Port.room at room
    split at room
    · next he => cases room; exact ⟨h, freeEntry_spec he, rfl⟩
    · split at room
      · next he =>
        cases room
        obtain ⟨x, hx, notice, ready⟩ := oldestNotice_spec he
        exact ⟨⟨h.line.of_keeps ⟨rfl, rfl, rfl, rfl, .inl rfl⟩ (served_dropNotice h.served),
          h.stock.dropNotice hx notice ready⟩, store_dropNotice v, booked_dropNotice h.stock he⟩
      · cases room
  obtain ⟨fits, free, booked⟩ := found
  have unlisted := not_queued_of_free fits.stock free
  refine ⟨⟨fits.line.of_keeps ⟨rfl, rfl, rfl, rfl, .inl rfl⟩ fits.served, ?_⟩, funext fun f => ?_⟩
  · obtain ⟨⟨_, _⟩, stock⟩ := fits
    refine ⟨stock.single, fun f => (stock.listed f).trans ?_, stock.sending, fun f => Iff.trans ?_ (stock.head f),
      fun f y => ?_, fun f hf => ?_, stock.message, fun s f hs hp => ?_⟩
    all_goals simp only [Port.setEntry, store_set]
    · by_cases hf : f = e
      · simp [hf, free, StoreEntry.reserve]
      · rw [if_neg hf]
    · by_cases hf : f = e
      · simp [hf, free, StoreEntry.reserve]
      · rw [if_neg hf]
    · by_cases hf : f = e
      · rw [if_pos hf]; rintro ⟨⟩; simp [hf, StoreEntry.reserve]
      · rw [if_neg hf]; simpa [hf] using stock.reserved f y
    · by_cases he : f = e
      · exact ⟨_, if_pos he, rfl⟩
      · rw [if_neg he]; exact stock.held f (hf.resolve_right he)
    · obtain ⟨y, hy, hk⟩ := stock.reply s f hs hp
      refine ⟨y, ?_, hk⟩
      rw [if_neg, hy]
      rintro rfl
      rw [free] at hy; cases hy
  · rw [booked_setEntry, ← booked]
    split
    · next hf => rw [hf, booked_of_free free]; rfl
    · rfl

end

end Sys2Proof.Machine
end

section
/-! SUPPORT. What the line of a port keeps (R119 to R130, R136 to R141): characters, breaks, switch points, and the completion
of a message. -/
namespace Sys2Proof.Machine

/-! ## Message assembly (R136 to R138) -/

/-- What message assembly holds fits its state. -/
structure Assembly.Fits (a : Assembly) : Prop where
  buffer : a.state ≠ .receiving → a.buffer = []
  lead : a.state = .receiving → a.buffer.head? = some leadByte ∧ a.buffer.length ≤ 205
  length : ∀ n, a.buffer[3]? = some n → n.toNat ≤ 200 ∧ a.buffer.length < n.toNat + 6

theorem assembly_hunting_fits : Assembly.hunting.Fits := ⟨fun _ => rfl, nofun, nofun⟩

theorem assembly_lead_fits : (⟨.receiving, [leadByte]⟩ : Assembly).Fits :=
  ⟨fun h => absurd rfl h, fun _ => ⟨rfl, by decide⟩, nofun⟩

/-- A buffer holds its whole frame when it is as long as its length byte says (R134, R138). -/
theorem frameDone_iff (buffer : List Byte) :
    frameDone buffer = true ↔ ∃ n, buffer[3]? = some n ∧ buffer.length = n.toNat + 6 := by
  match buffer with
  | [] => simp [frameDone]
  | [_] => simp [frameDone]
  | [_, _] => simp [frameDone]
  | [_, _, _] => simp [frameDone]
  | a :: b :: c :: n :: rest => simp [frameDone, Config.frameOverhead]

/-- A byte taken in receiving that neither abandons nor completes the frame (R138). -/
theorem Assembly.Fits.take {a : Assembly} (h : a.Fits) (receiving : a.state = .receiving) {b : Byte}
    (short : ¬((a.buffer ++ [b]).length = 4 ∧ Config.maxBody < b.toNat)) (more : frameDone (a.buffer ++ [b]) = false) :
    (⟨.receiving, a.buffer ++ [b]⟩ : Assembly).Fits := by
  obtain ⟨head, _⟩ := h.lead receiving
  have grown : (a.buffer ++ [b]).length = a.buffer.length + 1 := by simp
  have length (n : Byte) (hn : (a.buffer ++ [b])[3]? = some n) :
      n.toNat ≤ 200 ∧ (a.buffer ++ [b]).length < n.toNat + 6 := by
    have open_ : ¬(a.buffer ++ [b]).length = n.toNat + 6 := fun hl => by
      rw [(frameDone_iff _).mpr ⟨n, hn, hl⟩] at more; cases more
    rw [grown] at open_ ⊢
    by_cases old : 3 < a.buffer.length
    · rw [List.getElem?_append_left old] at hn
      obtain ⟨small, room⟩ := h.length n hn
      omega
    · have last : 3 = a.buffer.length := by
        obtain ⟨inside, _⟩ := List.getElem?_eq_some_iff.mp hn
        omega
      rw [last, List.getElem?_concat_length] at hn
      cases hn
      rw [grown] at short
      have : b.toNat ≤ 200 := by
        by_contra hb
        exact short ⟨by omega, by change 200 < _; omega⟩
      omega
  refine ⟨fun hr => absurd rfl hr, fun _ => ⟨?_, ?_⟩, length⟩
  · cases hb : a.buffer with
    | nil => rw [hb] at head; cases head
    | cons c l => rw [hb] at head; exact head
  · by_cases four : 3 < (a.buffer ++ [b]).length
    · obtain ⟨small, room⟩ := length _ (List.getElem?_eq_getElem four)
      change (a.buffer ++ [b]).length ≤ 205
      omega
    · change (a.buffer ++ [b]).length ≤ 205
      omega

section
variable {v w : Port} {H : StoreIx → Prop} {e : StoreIx} {item : Item} {rest : List Item}

theorem Port.LineFits.assembly (h : v.LineFits) : v.assembly.Fits := ⟨h.buffer, h.lead, h.length⟩

/-! ## The receive side (R120 to R123, R136 to R141) -/

theorem not_held (h : v.LineFits) (free : v.receiver ≠ .breakHold) : v.tx ≠ .held := fun e => free (h.held e)

/-- A line outside break hold fits by its assembly, its two timers and its transmitter. -/
theorem lineFits_outside (assembly : w.assembly.Fits) (free : w.receiver ≠ .breakHold)
    (gap : w.gapTimer.isSome = true → w.receiver = .waitMark ∨ w.receiver = .ready)
    (space : w.spaceTimer.isSome = true → w.receiver ≠ .ready)
    (watch : w.receiver = .inCharacter ∨ w.receiver = .breakWatch → w.spaceTimer.isSome = true) (tx : w.tx ≠ .held)
    (served : w.Served) : w.LineFits where
  buffer := assembly.buffer
  lead := assembly.lead
  length := assembly.length
  gap := gap
  space runs := by
    have := space runs
    cases hr : w.receiver <;> simp_all
  watch := watch
  hold e := absurd e free
  held e := absurd e tx
  served := served

/-- A port whose line alone has changed. -/
theorem Port.Fits.onLine (h : v.Fits H) (line : w.LineFits) (queue : w.queue = v.queue) (store : w.store = v.store)
    (tx : w.tx = v.tx) (switch : w.pendingSwitch = v.pendingSwitch) : w.Fits H := ⟨line, h.stock.of_same queue store tx switch⟩

/-- What a port keeps does not depend on its counters and profile. -/
theorem Port.Fits.counted (h : v.Fits H) (line : v.KeepsLine w) (queue : w.queue = v.queue) (store : w.store = v.store)
    (tx : w.tx = v.tx) (switch : w.pendingSwitch = v.pendingSwitch) : w.Fits H :=
  h.onLine (h.line.of_keeps line (by rw [Port.Served, tx, queue]; exact h.served)) queue store tx switch

theorem not_held_of_detects (h : v.LineFits) (detects : v.receiver = .waitMark ∨ v.receiver = .ready) : v.tx ≠ .held :=
  not_held h (by rcases detects with e | e <;> rw [e] <;> nofun)

theorem fits_goodEnd (h : v.Fits H) (free : v.receiver ≠ .breakHold) : v.goodEnd.Fits H :=
  have tx : v.tx ≠ .held := not_held h.line free
  h.onLine (lineFits_outside h.line.assembly nofun (fun _ => .inr rfl) nofun (by rintro (e | e) <;> cases e) tx h.served)
    rfl rfl rfl rfl

theorem fits_atMark (h : v.Fits H) (detects : v.receiver = .waitMark ∨ v.receiver = .ready) : v.atMark.Fits H :=
  have tx : v.tx ≠ .held := not_held_of_detects h.line detects
  h.onLine (lineFits_outside h.line.assembly nofun (fun _ => .inr rfl) nofun (by rintro (e | e) <;> cases e) tx h.served)
    rfl rfl rfl rfl

theorem fits_startStands (h : v.Fits H) (detects : v.receiver = .waitMark ∨ v.receiver = .ready) : v.startStands.Fits H :=
  have tx : v.tx ≠ .held := not_held_of_detects h.line detects
  h.onLine (lineFits_outside h.line.assembly nofun nofun nofun (fun _ => rfl) tx h.served) rfl rfl rfl rfl

theorem fits_watchBreak (h : v.Fits H) (free : v.receiver ≠ .breakHold) : v.watchBreak.Fits H := by
  have tx : v.tx ≠ .held := not_held h.line free
  refine h.onLine (lineFits_outside h.line.assembly nofun nofun nofun (fun _ => ?_) tx h.served) rfl rfl rfl rfl
  unfold Port.watchBreak
  dsimp only
  split
  · next runs => exact runs.2
  · rfl

/-- A character error as the statements write it (R121, R140). -/
theorem characterError_eq (v : Port) (atMark : Bool) : v.characterError atMark = v.errored atMark := by
  unfold Port.characterError Port.errored Port.assemblyError Port.countAbandoned Port.countCharacterError
  dsimp only
  by_cases receiving : v.assembly.state = .receiving <;> cases atMark <;>
    simp [receiving, Port.startGap, Port.atMark, LineFormat.markLevel, LineFormat.gapLength, Assembly.hunting]

theorem fits_characterError (h : v.Fits H) (free : v.receiver ≠ .breakHold) (atMark : Bool) :
    (v.characterError atMark).Fits H := by
  rw [characterError_eq]
  have open_ : (v.errored atMark).receiver = .waitMark ∨ (v.errored atMark).receiver = .ready := by
    cases atMark
    · exact .inl rfl
    · exact .inr rfl
  have tx : v.tx ≠ .held := not_held h.line free
  refine h.onLine (lineFits_outside assembly_hunting_fits ?_ (fun _ => open_) nofun ?_ tx h.served) rfl rfl rfl rfl
  · rcases open_ with e | e <;> rw [e] <;> nofun
  · rcases open_ with e | e <;> rw [e] <;> simp

/-- Assembly outside break hold may turn to any buffer that fits (R137, R138). -/
theorem fits_assembly (h : v.Fits H) (free : v.receiver ≠ .breakHold) {a : Assembly} (fits : a.Fits)
    (assembly : w.assembly = a) (receiver : w.receiver = v.receiver) (gap : w.gapTimer = v.gapTimer)
    (space : w.spaceTimer = v.spaceTimer) (queue : w.queue = v.queue) (store : w.store = v.store) (tx : w.tx = v.tx)
    (switch : w.pendingSwitch = v.pendingSwitch) : w.Fits H := by
  refine h.onLine (lineFits_outside (assembly ▸ fits) (receiver ▸ free) ?_ ?_ ?_ (tx ▸ not_held h.line free) ?_)
    queue store tx switch
  · rw [gap, receiver]; exact h.line.gap
  · rw [space, receiver]
    intro runs e
    have := h.line.space runs
    rw [e] at this; rcases this with e | e | e <;> cases e
  · rw [space, receiver]; exact h.line.watch
  · rw [Port.Served, tx, queue]; exact h.served

/-- Assembly becomes idle (R139, R141). -/
theorem fits_idle (h : v.Fits H) : ({ v with assembly := Assembly.idle } : Port).Fits H := by
  refine h.onLine ⟨fun _ => rfl, nofun, nofun, h.line.gap, h.line.space, h.line.watch, fun hold => ?_, h.line.held, h.served⟩
    rfl rfl rfl rfl
  exact ⟨rfl, (h.line.hold hold).2⟩

theorem countAbandoned_eq (v : Port) : ∃ c, v.countAbandoned = { v with counters := c } := by
  unfold Port.countAbandoned
  split
  · exact ⟨_, rfl⟩
  · exact ⟨v.counters, rfl⟩

theorem fits_gapExpiry (h : v.Fits H) : v.gapExpiry.Fits H := by
  have idle := fits_idle h
  obtain ⟨c, hc⟩ := countAbandoned_eq v
  have line := idle.line
  unfold Port.gapExpiry
  rw [hc]
  exact idle.onLine ⟨line.buffer, line.lead, line.length, nofun, line.space, line.watch, line.hold, line.held, line.served⟩
    rfl rfl rfl rfl

theorem fits_assemblyError (h : v.Fits H) (free : v.receiver ≠ .breakHold) : v.assemblyError.Fits H := by
  obtain ⟨c, hc⟩ := countAbandoned_eq v
  unfold Port.assemblyError
  rw [hc]
  exact fits_assembly h free assembly_hunting_fits rfl rfl rfl rfl rfl rfl rfl rfl

/-! ## Switch points and breaks (R124 to R130) -/

theorem lineFits_switched (free : v.tx ≠ .held) (served : v.Served) (f : LineFormat) : (v.switched f).LineFits :=
  lineFits_outside assembly_hunting_fits nofun (fun _ => .inl rfl) nofun (by rintro (e | e) <;> cases e) free served

theorem fits_switched (h : v.Fits H) (free : v.receiver ≠ .breakHold) (f : LineFormat) : (v.switched f).Fits H :=
  ⟨lineFits_switched (not_held h.line free) h.served f, h.stock.unswitched rfl rfl rfl rfl⟩

theorem fits_applyInHold (h : v.Fits H) (f : LineFormat) : (v.applyInHold f).Fits H :=
  ⟨h.line.of_keeps ⟨rfl, rfl, rfl, rfl, .inl rfl⟩ h.served, h.stock.unswitched rfl rfl rfl rfl⟩

/-- A port that a break has restarted holds nothing (R124, R126, R168). -/
theorem fits_broken (v : Port) : v.broken.Fits fun _ => False := by
  have tx : v.broken.tx = .held ∨ v.broken.tx = .finishing := by
    change (if _ then _ else _) = _ ∨ (if _ then _ else _) = _
    split
    · exact .inr rfl
    · exact .inl rfl
  refine ⟨⟨fun _ => rfl, nofun, nofun, nofun, nofun, ?_, fun _ => ⟨rfl, tx⟩, fun _ => rfl, fun _ => rfl⟩,
    storeFits_iff.mp (Port.storeFits_of_empty rfl (fun _ => rfl) (fun e => ?_) rfl)⟩
  · rintro (e | e) <;> cases e
  · rcases tx with tx | tx <;> rw [tx] at e <;> cases e

theorem booked_of_empty (empty : v.store = Vector.replicate 6 none) : v.booked e = none := by
  simp [Port.booked, empty]

/-! ## The transmitter (R119, R160, R161) -/

/-- An IDLE transmitter takes up the head of its queue; any other goes on. -/
def Port.serve (v : Port) (frame : SlotId → List Byte) : Port := if v.tx = .idle then v.takesUp frame else v

theorem give_eq_serve (s : State) (p : PortId) :
    s.give p = s.setPort p ((s.port p).serve fun i => (s.slot i).resultFrame) := by
  unfold Port.serve
  split
  · next ht => exact give_eq_takesUp ht
  · next ht => rw [give_of_not_idle ht, setPort_port]

variable (frame : SlotId → List Byte)

theorem Port.StockFits.serve (h : v.StockFits H) : (v.serve frame).StockFits H := by
  unfold Port.serve
  split
  · next ht => exact h.takesUp ht frame
  · exact h

theorem booked_serve (v : Port) : (v.serve frame).booked = v.booked := by
  unfold Port.serve
  split
  · exact booked_takesUp v frame
  · rfl

theorem served_serve (v : Port) : (v.serve frame).Served := by
  unfold Port.serve
  split
  · cases hq : v.queue with
    | nil => rw [Port.takesUp, hq]; exact fun _ => hq
    | cons item rest => rw [takesUp_cons frame hq]; nofun
  · next ht => exact fun e => absurd e ht

theorem keepsLine_serve (v : Port) : v.KeepsLine (v.serve frame) := by
  unfold Port.serve
  split
  · next ht =>
    cases hq : v.queue with
    | nil => rw [Port.takesUp, hq]; exact ⟨rfl, rfl, rfl, rfl, .inl rfl⟩
    | cons item rest => rw [takesUp_cons frame hq]; cases item <;> exact ⟨rfl, rfl, rfl, rfl, .inr ⟨ht, rfl⟩⟩
  · exact ⟨rfl, rfl, rfl, rfl, .inl rfl⟩

/-- A line that fits before any queue fits once its transmitter has been served. -/
theorem fits_serve (line : ({ v with queue := [] } : Port).LineFits) (stock : v.StockFits H) : (v.serve frame).Fits H := by
  obtain ⟨receiver, assembly, gap, space, tx⟩ := keepsLine_serve frame v
  exact ⟨line.of_keeps ⟨receiver, assembly, gap, space, tx⟩ (served_serve frame v), stock.serve frame⟩

/-- The character ends that a break let finish (R119, R124). -/
theorem fits_finishCharacter (h : v.Fits H) (finishing : v.tx = .finishing) : (v.finishCharacter.serve frame).Fits H := by
  have stock : v.finishCharacter.StockFits H := by
    refine h.stock.silent (by rw [finishing]; nofun) rfl rfl ?_ rfl
    unfold Port.finishCharacter
    dsimp only
    split <;> nofun
  refine fits_serve frame ?_ stock
  by_cases hold : v.receiver = .breakHold
  · have tx : v.finishCharacter.tx = .held := if_pos hold
    have line := h.line
    exact ⟨line.buffer, line.lead, line.length, line.gap, line.space, line.watch,
      fun _ => ⟨(line.hold hold).1, .inl tx⟩, fun _ => hold, fun _ => rfl⟩
  · have tx : v.finishCharacter.tx = .idle := if_neg hold
    have line := h.line
    exact ⟨line.buffer, line.lead, line.length, line.gap, line.space, line.watch, fun e => absurd e hold,
      fun (e : v.finishCharacter.tx = .held) => (by rw [tx] at e; cases e), fun _ => rfl⟩

/-- The port when its break has ended, before its transmitter takes up a message (R127). -/
def Port.unbroken (v : Port) : Port := (({ v.atMark with assembly := Assembly.idle } : Port).noticed .portRestarted 0).leaveHeld

theorem leaveHeld_tx (v : Port) : v.leaveHeld.tx ≠ .held ∧ (v.tx ≠ .sending → v.leaveHeld.tx ≠ .sending) := by
  unfold Port.leaveHeld
  split
  · exact ⟨nofun, fun _ => nofun⟩
  · next h => exact ⟨h, id⟩

theorem fits_unbroken (h : v.Fits H) (hold : v.receiver = .breakHold) :
    (v.unbroken.serve frame).Fits H ∧ (v.unbroken.serve frame).booked = v.booked := by
  obtain ⟨idle, tx⟩ := h.line.hold hold
  have busy : v.tx ≠ .idle := by rcases tx with e | e <;> rw [e] <;> nofun
  have silent : v.tx ≠ .sending := by rcases tx with e | e <;> rw [e] <;> nofun
  have gap : v.gapTimer = none := Option.not_isSome_iff_eq_none.mp fun runs => by
    have := h.line.gap runs
    rw [hold] at this; rcases this with e | e <;> cases e
  have stock : ({ v.atMark with assembly := Assembly.idle } : Port).StockFits H := h.stock.of_same rfl rfl rfl rfl
  have served : ({ v.atMark with assembly := Assembly.idle } : Port).Served := fun e => absurd e busy
  have keeps := keepsLine_noticed { v.atMark with assembly := Assembly.idle } .portRestarted 0
  have tx' : (({ v.atMark with assembly := Assembly.idle } : Port).noticed .portRestarted 0).tx = v.tx := by
    rcases keeps.tx with same | ⟨was, _⟩
    · exact same
    · exact absurd was busy
  have noticed := stock.noticed served .portRestarted 0
  have booked := booked_noticed stock .portRestarted 0
  unfold Port.unbroken
  generalize ({ v.atMark with assembly := Assembly.idle } : Port).noticed .portRestarted 0 = u at *
  obtain ⟨notHeld, notSending⟩ := leaveHeld_tx u
  have left : u.leaveHeld = { u with tx := u.leaveHeld.tx } := by unfold Port.leaveHeld; split <;> rfl
  have stock' : u.leaveHeld.StockFits H := by
    rw [left]
    exact noticed.silent (tx' ▸ silent) rfl rfl (notSending (tx' ▸ silent)) rfl
  refine ⟨fits_serve frame (Port.lineFits_of_quiet ?_ ?_ ?_ (.inl ?_) notHeld fun _ => rfl) stock', ?_⟩
  · rw [left]; exact keeps.assembly
  · rw [left]; exact keeps.gap.trans gap
  · rw [left]; exact keeps.space
  · rw [left]; exact keeps.receiver
  · rw [booked_serve, left]; exact booked

/-! ## The completion of a message (R161) -/

/-- The head item leaves the queue with what it held (R161 steps 1 and 2), where no switch waits for it. -/
theorem stockFits_sent (h : v.StockFits H) (hq : v.queue = item :: rest)
    (store : w.store = (v.sent item rest).store) (queue : w.queue = rest) (tx : w.tx = .idle)
    (still : ∀ x, w.pendingSwitch = some x → v.pendingSwitch = some x ∧ x.reached item = false) : w.StockFits H := by
  have others (e : StoreIx) (he : .entry e ≠ item) : w.store[e] = v.store[e] := by
    rw [store]
    cases item with
    | result i => rfl
    | entry f => exact (store_set v none).trans (if_neg fun hf => he (by rw [hf]))
  have gone (e : StoreIx) (he : item = .entry e) : w.store[e] = none := by
    rw [store, he]; exact (store_set v none).trans (if_pos rfl)
  have kept {e : StoreIx} {x : StoreEntry} (hx : w.store[e] = some x) : .entry e ≠ item ∧ v.store[e] = some x := by
    have he : .entry e ≠ item := fun he => by rw [gone e he.symm] at hx; cases hx
    exact ⟨he, (others e he).symm.trans hx⟩
  have count (e : StoreIx) : rest.count (.entry e) + (if item = .entry e then 1 else 0) ≤ 1 := by
    have := h.single e
    rw [hq, List.count_cons] at this
    simpa using this
  refine ⟨fun e => ?_, fun e => ?_, fun e => (by rw [tx] at e; cases e), fun e => ?_, fun e x hx => ?_, fun e he => ?_,
    fun x hx hp => ?_, fun x e hx hp => ?_⟩
  · rw [queue]; exact Nat.le_of_add_right_le (count e)
  · rw [queue]
    by_cases he : item = .entry e
    · have := count e
      rw [if_pos he] at this
      refine iff_of_false (fun hm => ?_) (by rw [gone e he]; simp)
      have := List.count_pos_iff.mpr hm
      omega
    · rw [others e (Ne.symm he), ← h.listed, hq, List.mem_cons, or_iff_right (Ne.symm he)]
  · rw [tx]
    refine iff_of_false (fun ⟨x, hx, hc⟩ => ?_) (by simp)
    obtain ⟨he, hx⟩ := kept hx
    have := ((h.head e).mp ⟨x, hx, hc⟩).2
    rw [hq] at this
    exact he (Option.some.inj this).symm
  · exact h.reserved e x (kept hx).2
  · have notItem : .entry e ≠ item := fun hi => not_queued_of_held h he (by rw [hq, hi]; exact List.mem_cons_self)
    rw [others e notItem]; exact h.held e he
  · have := (still x hx).2
    rw [PendingSwitch.reached, hp] at this; cases this
  · obtain ⟨hv, unreached⟩ := still x hx
    have notItem : .entry e ≠ item := by
      rw [PendingSwitch.reached, hp] at unreached
      exact Ne.symm (of_decide_eq_false unreached)
    rw [others e notItem]; exact h.reply x e hv hp

/-- A port that has sent a message, its transmitter not yet given the next one, with any switch applied whose point it is. -/
def Port.completed (v : Port) (item : Item) (rest : List Item) : Port :=
  match v.pendingSwitch with
  | some x => if x.reached item then (v.sent item rest).switched x.format else v.sent item rest
  | none => v.sent item rest

theorem fits_completed (h : v.Fits H) (ht : v.tx = .sending) (hq : v.queue = item :: rest) :
    ((v.completed item rest).serve frame).Fits H := by
  have free : v.receiver ≠ .breakHold := fun hold => by
    have := (h.line.hold hold).2
    rw [ht] at this; rcases this with e | e <;> cases e
  have plain : ({ v.sent item rest with queue := [] } : Port).LineFits := by
    refine lineFits_outside h.line.assembly free h.line.gap (fun runs e => ?_) h.line.watch nofun fun _ => rfl
    have := h.line.space runs
    rw [show v.receiver = .ready from e] at this; rcases this with e | e | e <;> cases e
  unfold Port.completed
  split
  · next x hx =>
    split
    · exact fits_serve frame (lineFits_switched (v := { v.sent item rest with queue := [] }) nofun (fun _ => rfl) x.format)
        (stockFits_sent h.stock hq rfl rfl rfl nofun)
    · next unreached =>
      refine fits_serve frame plain (stockFits_sent h.stock hq rfl rfl rfl fun y hy => ⟨hy, ?_⟩)
      rw [show v.pendingSwitch = some y from hy] at hx; cases hx
      simpa using unreached
  · next hx =>
    refine fits_serve frame plain (stockFits_sent h.stock hq rfl rfl rfl fun y hy => ?_)
    rw [show v.pendingSwitch = some y from hy] at hx; cases hx

/-- The completed message was no reservation for a recovery. -/
theorem booked_completed (h : v.StockFits H) (hq : v.queue = item :: rest) : (v.completed item rest).booked = v.booked := by
  have sent : (v.sent item rest).booked = v.booked := by
    cases item with
    | result i => rfl
    | entry e =>
      obtain ⟨x, hx, hc⟩ := (h.listed e).mp (by rw [hq]; exact List.mem_cons_self)
      funext f
      refine (booked_setEntry v none).trans ?_
      split
      · next hf => rw [hf, booked_of_composed h hx hc]; rfl
      · rfl
  unfold Port.completed
  split
  · split
    · exact sent
    · exact sent
  · exact sent

end

end Sys2Proof.Machine
end

section
/-! SUPPORT. What holds of all ports and segments together (R99, R103, R105, R158, R160, R162 to R164), also while a message is
being handled, and what the operations of the outgoing side and of the pool keep of it. -/
namespace Sys2Proof.Machine

/-! ## The health record of a segment (R99, R103 to R109) -/

section
variable {v w : Seg} {b : Bool}

/-- The health record fits by the engine, the pulse count, ready owed and the recovery alone. -/
theorem Seg.HealthFits.of_same (h : v.HealthFits) (engine : w.engine = v.engine) (pulses : w.pulseCount = v.pulseCount)
    (ready : w.readyOwed = v.readyOwed) (recovery : w.recovery = v.recovery) : w.HealthFits := by
  obtain ⟨h1, h2, h3, h4⟩ := h
  exact ⟨pulses ▸ h1, by rwa [engine, pulses], by rwa [ready, engine], by rwa [recovery, engine]⟩

theorem Seg.HealthFits.retime (h : w.HealthFits) : (v.retime w).HealthFits := h.of_same rfl rfl rfl rfl

theorem Seg.HealthFits.lowSeen (h : v.HealthFits) (scl sda : Bool) : (v.lowSeen scl sda).HealthFits :=
  h.of_same rfl rfl rfl rfl

/-- In IDLE and RUN the part is ready, and no recovery is outstanding (R103, R111). -/
theorem Seg.HealthFits.settled (h : v.HealthFits) (up : v.engine = .idle ∨ v.engine.isRun = true) :
    v.readyOwed = false ∧ v.recovery = none := by
  constructor
  · refine Bool.eq_false_iff.mpr fun owed => ?_
    obtain ⟨notIdle, notRun⟩ := h.ready owed
    rcases up with idle | run
    · exact notIdle idle
    · rw [run] at notRun; cases notRun
  · refine Option.not_isSome_iff_eq_none.mp fun some => ?_
    rcases h.outstanding some with ⟨b, e⟩ | ⟨b, e⟩ <;> rw [e] at up <;> rcases up with up | up <;> cases up

theorem healthFits_of_settled (pulses : v.pulseCount ≤ 9) (engine : v.engine ≠ .recover false)
    (ready : v.readyOwed = false) (recovery : v.recovery = none) : v.HealthFits where
  pulses := pulses
  pulsing e := absurd e engine
  ready e := by rw [ready] at e; cases e
  outstanding e := by rw [recovery] at e; cases e

/-- In CHECK a recovery and ready may both be outstanding (R99, R103). -/
theorem healthFits_of_check (pulses : v.pulseCount ≤ 9) (engine : v.engine = .check b) : v.HealthFits where
  pulses := pulses
  pulsing e := by rw [engine] at e; cases e
  ready _ := by rw [engine]; exact ⟨nofun, rfl⟩
  outstanding _ := .inl ⟨b, engine⟩

/-- So may they in RECOVER (R104 to R106). -/
theorem healthFits_of_recover (pulses : v.pulseCount ≤ 9) (engine : v.engine = .recover b)
    (pulsing : b = false → v.pulseCount < 9) : v.HealthFits where
  pulses := pulses
  pulsing e := pulsing (by rw [engine] at e; exact Engine.recover.inj e)
  ready _ := by rw [engine]; exact ⟨nofun, rfl⟩
  outstanding _ := .inr ⟨b, engine⟩

/-- In FAULT and OFF no recovery is outstanding, and ready may be owed (R107, R109). -/
theorem healthFits_of_down (pulses : v.pulseCount ≤ 9) (engine : v.engine = .fault ∨ v.engine = .off)
    (recovery : v.recovery = none) : v.HealthFits := by
  refine ⟨pulses, fun e => ?_, fun _ => ?_, fun e => by rw [recovery] at e; cases e⟩
  · rcases engine with d | d <;> rw [d] at e <;> cases e
  · rcases engine with d | d <;> rw [d] <;> exact ⟨nofun, rfl⟩

/-- An engine that leaves RUN for IDLE or CHECK, or goes on in RUN. -/
theorem Seg.HealthFits.of_run (h : v.HealthFits) (run : v.engine.isRun = true) (engine : w.engine ≠ .recover false)
    (pulses : w.pulseCount = v.pulseCount) (ready : w.readyOwed = v.readyOwed) (recovery : w.recovery = v.recovery) :
    w.HealthFits := by
  obtain ⟨notOwed, none⟩ := h.settled (.inr run)
  exact healthFits_of_settled (pulses ▸ h.pulses) engine (ready.trans notOwed) (recovery.trans none)

end

/-! ## A state whose stores fit -/

/-- The lines, the stores, the health records and the entries that are reserved for recoveries fit (`State.StoresFit`), with
the entries that `H` names held for the reply of the message in hand. -/
structure State.Fitted (s : State) (H : PortId → StoreIx → Prop) : Prop where
  ports : ∀ p, (s.port p).Fits (H p)
  health : ∀ g, (s.seg g).HealthFits
  asked : ∀ p e g, (s.port p).booked e = some g → (s.seg g).recovery.map Recovery.port = some p
  kept : ∀ g r, (s.seg g).recovery = some r → ∃ e, (s.port r.port).booked e = some g
  once : ∀ p g e f, (s.port p).booked e = some g → (s.port p).booked f = some g → e = f

/-- No entry is held. -/
def noHold : PortId → StoreIx → Prop := fun _ _ => False

/-- One entry is held, for the reply to the message in hand (R163). -/
def holdOf (p : PortId) (e : StoreIx) : PortId → StoreIx → Prop := fun q f => q = p ∧ f = e

theorem fitted_iff {s : State} : s.StoresFit ↔ s.Fitted noHold := by
  constructor
  · intro h
    refine ⟨fun p => ⟨h.lines p, storeFits_iff.mp (h.stores p)⟩, h.health, fun p e g he => ?_, fun g r hr => ?_,
      fun p g e f he hf => ?_⟩
    · obtain ⟨x, hx, hg⟩ := booked_eq_some.mp he
      exact h.asked p e x g hx hg
    · exact (reservedEntry_isSome (storeFits_iff.mp (h.stores r.port))).mp (h.kept g r hr)
    · obtain ⟨x, hx, hg⟩ := booked_eq_some.mp he
      obtain ⟨y, hy, hg'⟩ := booked_eq_some.mp hf
      exact h.once p e f x y hx hy (by rw [hg]; rfl) (hg.trans hg'.symm)
  · intro h
    refine ⟨fun p => (h.ports p).line, fun p => storeFits_iff.mpr (h.ports p).stock, h.health, fun p e x g hx hg => ?_,
      fun g r hr => ?_, fun p e f x y hx hy some same => ?_⟩
    · exact h.asked p e g (booked_eq_some.mpr ⟨x, hx, hg⟩)
    · exact (reservedEntry_isSome (h.ports r.port).stock).mpr (h.kept g r hr)
    · obtain ⟨g, hg⟩ := Option.isSome_iff_exists.mp some
      exact h.once p g e f (booked_eq_some.mpr ⟨x, hx, hg⟩) (booked_eq_some.mpr ⟨y, hy, same ▸ hg⟩)

section
variable {s t : State} {H H' : PortId → StoreIx → Prop} {p q : PortId} {e : StoreIx} {x : StoreEntry} {v : Port} {g : SegId}
  {w : Seg} {i : SlotId}

theorem State.Fitted.served (h : s.Fitted H) (q : PortId) : (s.port q).Served := (h.ports q).served

/-! ## One block changed -/

/-- Where the reserved entries and the recoveries stay, only the ports and the health records count. -/
theorem State.Fitted.of_booked (h : s.Fitted H) (ports : ∀ p, (t.port p).Fits (H' p)) (health : ∀ g, (t.seg g).HealthFits)
    (booked : ∀ p, (t.port p).booked = (s.port p).booked) (recovery : ∀ g, (t.seg g).recovery = (s.seg g).recovery) :
    t.Fitted H' := by
  refine ⟨ports, health, fun p e g => ?_, fun g r => ?_, fun p g e f => ?_⟩
  · rw [booked, recovery]; exact h.asked p e g
  · rw [booked, recovery]; exact h.kept g r
  · rw [booked]; exact h.once p g e f

theorem State.Fitted.of_same (h : s.Fitted H) (ports : ∀ p, t.port p = s.port p) (segs : ∀ g, t.seg g = s.seg g) :
    t.Fitted H :=
  h.of_booked (fun p => ports p ▸ h.ports p) (fun g => segs g ▸ h.health g) (fun p => by rw [ports])
    (fun g => by rw [segs])

/-- A port changed, with the entries held there. -/
theorem State.Fitted.setPort_holding (h : s.Fitted H) (fits : v.Fits (H' p)) (others : ∀ q, q ≠ p → H' q = H q)
    (booked : v.booked = (s.port p).booked) : (s.setPort p v).Fitted H' := by
  refine h.of_booked (fun q => ?_) (fun g => by rw [seg_setPort]; exact h.health g) (fun q => ?_)
    (fun g => by rw [seg_setPort])
  · rw [port_setPort_eq]
    split
    · next hq => rw [hq]; exact fits
    · next hq => rw [others q hq]; exact h.ports q
  · rw [port_setPort_eq]
    split
    · next hq => rw [hq]; exact booked
    · rfl

theorem State.Fitted.setPort (h : s.Fitted H) (fits : v.Fits (H p)) (booked : v.booked = (s.port p).booked) :
    (s.setPort p v).Fitted H := h.setPort_holding fits (fun _ _ => rfl) booked

theorem State.Fitted.setSeg (h : s.Fitted H) (health : w.HealthFits) (recovery : w.recovery = (s.seg g).recovery) :
    (s.setSeg g w).Fitted H := by
  refine h.of_booked (fun q => by rw [port_setSeg]; exact h.ports q) (fun k => ?_) (fun q => by rw [port_setSeg])
    (fun k => ?_)
  · rw [seg_setSeg_eq]
    split
    · exact health
    · exact h.health k
  · rw [seg_setSeg_eq]
    split
    · next hk => rw [hk]; exact recovery
    · rfl

theorem State.Fitted.modSeg {f : Seg → Seg} (h : s.Fitted H) (health : (f (s.seg g)).HealthFits)
    (recovery : (f (s.seg g)).recovery = (s.seg g).recovery) : (s.modSeg g f).Fitted H := h.setSeg health.retime recovery

/-- The change of a segment that leaves its health record. -/
theorem State.Fitted.sees {f : Seg → Seg} (h : s.Fitted H) (sees : f (s.seg g) = w) (engine : w.engine = (s.seg g).engine)
    (pulses : w.pulseCount = (s.seg g).pulseCount) (ready : w.readyOwed = (s.seg g).readyOwed)
    (recovery : w.recovery = (s.seg g).recovery) : (s.modSeg g f).Fitted H := by
  subst sees
  exact h.modSeg ((h.health g).of_same engine pulses ready recovery) recovery

theorem State.Fitted.setList (h : s.Fitted H) (l : List SlotId) : (s.setSeg g { s.seg g with list := l }).Fitted H :=
  h.setSeg ((h.health g).of_same rfl rfl rfl rfl) rfl

theorem State.Fitted.setSlot (h : s.Fitted H) (r : Slot) : (s.setSlot i r).Fitted H :=
  h.of_same (fun _ => rfl) fun k => seg_setSlot s i r k

/-! ## The entries reserved for a segment's recovery -/

/-- A recovery that is answered leaves no entry reserved for its segment (R103, R107, R164). -/
theorem State.Fitted.resolves (h : s.Fitted H) (ports : ∀ q, (t.port q).Fits (H q))
    (booked : ∀ q e, (t.port q).booked e = if (s.port q).booked e = some g then none else (s.port q).booked e)
    (health : (t.seg g).HealthFits) (cleared : (t.seg g).recovery = none) (others : ∀ k, k ≠ g → t.seg k = s.seg k) :
    t.Fitted H := by
  have still {q : PortId} {e : StoreIx} {k : SegId} (hb : (t.port q).booked e = some k) :
      k ≠ g ∧ (s.port q).booked e = some k := by
    rw [booked] at hb
    split at hb
    · cases hb
    · next hg => exact ⟨fun hk => hg (hk ▸ hb), hb⟩
  refine ⟨ports, fun k => ?_, fun q e k hb => ?_, fun k r hr => ?_, fun q k e f he hf => ?_⟩
  · by_cases hk : k = g
    · rw [hk]; exact health
    · rw [others k hk]; exact h.health k
  · obtain ⟨hk, hb⟩ := still hb
    rw [others k hk]; exact h.asked q e k hb
  · have hk : k ≠ g := fun hk => by rw [hk, cleared] at hr; cases hr
    obtain ⟨e, he⟩ := h.kept k r (others k hk ▸ hr)
    exact ⟨e, by rw [booked, if_neg (by rw [he]; exact fun hg => hk (Option.some.inj hg)), he]⟩
  · exact h.once q k e f (still he).2 (still hf).2

/-- What the answer to the recovery of a segment makes of a port that has changed in other ways too. -/
theorem State.Fitted.recovered (h : s.Fitted H) (fits : v.Fits (H q)) (booked : v.booked = (s.port q).booked)
    (status : MgmtStatus) : (v.recovered q g (s.seg g).recovery status).Fits (H q) ∧
      ∀ f, (v.recovered q g (s.seg g).recovery status).booked f =
        if (s.port q).booked f = some g then none else (s.port q).booked f := by
  rw [← booked]
  exact fits.recovered q g status (fun e he => h.asked q e g (booked ▸ he))
    fun e f he hf => h.once q g e f (booked ▸ he) (booked ▸ hf)

/-! ## Short messages (R159, R162 to R165) -/

/-- A reply is composed into the entry held for it. -/
theorem fitted_compose (h : s.Fitted (holdOf p e)) (ready : x.condition = .ready) (plain : x.reservedFor = none) :
    (s.compose p e x).Fitted noHold := by
  have fits := h.ports p
  have held : holdOf p e p e := ⟨rfl, rfl⟩
  rw [compose_eq_sends fits.served, State.sends]
  refine h.setPort_holding ((fits.sends (not_queued_of_held fits.stock held) ready plain).congr fun f => ?_) (fun q hq => ?_)
    (booked_sends_of_unbooked (booked_of_held fits.stock held) plain)
  · exact ⟨False.elim, fun hf => hf.2 hf.1.2⟩
  · exact funext fun f => propext ⟨False.elim, fun hf => hq hf.1⟩

theorem fitted_refuse {reason : Reason} {kind tag : Byte} (h : s.Fitted (holdOf p e)) :
    (s.refuse p e reason kind tag).Fitted noHold := fitted_compose h rfl rfl

theorem fitted_mreply {tag op : Byte} {status : MgmtStatus} {reply : List Byte} (h : s.Fitted (holdOf p e)) :
    (s.mreply p e tag op status reply).Fitted noHold := fitted_compose h rfl rfl

theorem fitted_canreply {tag named : Byte} {o : CancelOutcome} (h : s.Fitted (holdOf p e)) :
    (s.canreply p e tag o named).Fitted noHold := fitted_compose h rfl rfl

/-- The gate hands on an entry that is held, or discards the message (R163). -/
theorem fitted_gate {kind : ShortKind} {k : StoreIx → State → State} (h : s.Fitted noHold)
    (hk : ∀ e t, t.Fitted (holdOf p e) → (k e t).Fitted noHold) : (s.gate p kind k).Fitted noHold := by
  unfold State.gate
  split
  · next e v room =>
    obtain ⟨fits, booked⟩ := (h.ports p).reserves room kind
    refine hk e _ (h.setPort_holding (fits.congr fun f => ?_) (fun q hq => ?_) booked)
    · exact ⟨fun hf => .inr hf.2, fun hf => ⟨rfl, hf.resolve_left id⟩⟩
    · exact funext fun f => propext ⟨fun hf => hq hf.1, False.elim⟩
  · exact h.setPort ((h.ports p).counted ⟨rfl, rfl, rfl, rfl, .inl rfl⟩ rfl rfl rfl rfl) rfl

theorem fitted_gatedRefuse {reason : Reason} {kind tag : Byte} (h : s.Fitted noHold) :
    (s.gatedRefuse p reason kind tag).Fitted noHold := fitted_gate h fun _ _ => fitted_refuse

theorem fitted_noticeIf {kind : NoticeKind} {arg : Byte} (h : s.Fitted H) : (s.noticeIf p kind arg).Fitted H := by
  rw [noticeIf_eq (h.served p)]
  obtain ⟨fits, booked⟩ := (h.ports p).noticedIf kind arg
  exact h.setPort fits booked

theorem fitted_noticeTo {kind : NoticeKind} {arg : Byte} (ps : List PortId) (h : s.Fitted H) :
    (s.noticeTo ps kind arg).Fitted H := by
  unfold State.noticeTo
  induction ps generalizing s with
  | nil => exact h
  | cons p ps ih => exact ih (fitted_noticeIf h)

/-! ## Requests (R21 to R40) -/

theorem fitted_answer {res : Result} (h : s.Fitted H) : (s.answer i res).Fitted H := by
  rw [answer_eq (h.served _)]
  exact (h.setSlot _).setPort ((h.ports _).queued i _) (booked_queued ..)

theorem fitted_withdraw {st : Status} (h : s.Fitted H) : (s.withdraw i st).Fitted H := fitted_answer (h.setList _)

theorem fitted_purge {u : TargetId} (h : s.Fitted H) : (s.purge u).Fitted H := by
  unfold State.purge
  generalize (s.purgeOrder u).1 = l
  have counted : ({ s with freeCount := (s.purgeOrder u).2 } : State).Fitted H := h.of_same (fun _ => rfl) fun _ => rfl
  generalize ({ s with freeCount := (s.purgeOrder u).2 } : State) = t at counted
  induction l generalizing t with
  | nil => exact counted
  | cons i l ih => exact ih _ (fitted_withdraw counted)

theorem fitted_settle {a : Attempt} {f : Option Failure} (h : s.Fitted H) : (s.settle a f).Fitted H := by
  rcases settle_cases s a f with frees | ⟨_, ⟨r, res, _, answers⟩ | ⟨r, _, returns⟩⟩
  · rw [frees]; exact h.setSlot _
  · rw [answers]; exact fitted_answer (h.setSlot r)
  · rw [returns]; exact (h.setSlot r).setList _

end

end Sys2Proof.Machine
end

section
/-! SUPPORT. What the commands of a segment make of its health record, and of the entries reserved for recoveries (R99 to
R109). -/
namespace Sys2Proof.Machine

section
variable {s : State} {H : PortId → StoreIx → Prop} {p : PortId} {e : StoreIx} {tag : Byte} {g : SegId} {a : Attempt}

/-! ## A running attempt (R60 to R82) -/

theorem healthFits_leaveRun {v : Seg} (h : v.HealthFits) (run : v.engine.isRun = true) (first : Option Failure)
    (second : Option FailKind) (toCheck opens : Bool) : (v.leaveRun first second toCheck opens).HealthFits := by
  cases toCheck
  · exact h.of_run run nofun rfl rfl rfl
  · exact h.of_run run nofun rfl rfl rfl

theorem fitted_endAttempt {first : Option Failure} {second : Option FailKind} {toCheck opens : Bool} (h : s.Fitted H)
    (run : (s.seg g).engine.isRun = true) : (s.endAttempt g a first second toCheck opens).Fitted H := by
  have settled := fitted_settle (a := a) (f := first) h
  have still : ((s.settle a first).seg g).engine.isRun = true := by rw [seg_settle]; exact run
  refine settled.modSeg (healthFits_leaveRun (settled.health g) still first second toCheck opens) ?_
  cases toCheck <;> rfl

theorem fitted_inRun {f : Attempt → State} (h : s.Fitted H)
    (hf : ∀ a, (s.seg g).engine = .run a → (f a).Fitted H) : (s.inRun g f).Fitted H := by
  cases engine : (s.seg g).engine with
  | run a => rw [inRun_of engine]; exact hf a engine
  | _ => rw [inRun_of_not (by rw [engine]; rfl)]; exact h

theorem isRun_of {v : Seg} (running : v.engine = .run a) : v.engine.isRun = true := by rw [running]; rfl

theorem fitted_setAttempt (h : s.Fitted H) (run : (s.seg g).engine.isRun = true) : (s.setAttempt g a).Fitted H :=
  h.modSeg ((h.health g).of_run run nofun rfl rfl rfl) rfl

theorem fitted_openAttempt (h : s.Fitted H) (run : (s.seg g).engine.isRun = true) : (s.openAttempt g a).Fitted H := by
  have counted := h.setSlot (i := a.slot) { s.slot a.slot with attempts := (s.slot a.slot).attempts + 1 }
  have health : ((s.setSlot a.slot { s.slot a.slot with attempts := (s.slot a.slot).attempts + 1 }).seg g).HealthFits :=
    counted.health g
  unfold State.openAttempt State.modSlot
  refine counted.modSeg ?_ ?_
  · rw [start_eq]
    exact health.of_run (by rw [seg_setSlot]; exact run) nofun rfl rfl rfl
  · rw [start_eq]; rfl

theorem fitted_meetStart (h : s.Fitted H) : (s.meetStart g).Fitted H := by
  unfold State.meetStart
  split
  · next a running =>
    split
    · exact fitted_endAttempt h (isRun_of running)
    · exact h
  · exact h

theorem fitted_meetCondition (h : s.Fitted H) : (s.meetCondition g).Fitted H := by
  unfold State.meetCondition
  split
  · next a running =>
    split
    · exact fitted_endAttempt h (isRun_of running)
    · exact h
  · exact h

theorem fitted_meetRestart (h : s.Fitted H) : (s.meetRestart g).Fitted H :=
  fitted_inRun h fun a running => by
    split
    · exact fitted_setAttempt h (isRun_of running)
    · exact h

theorem fitted_meetClockLow {fell : Bool} (h : s.Fitted H) : (s.meetClockLow g fell).Fitted H :=
  fitted_inRun h fun _ running => fitted_setAttempt h (isRun_of running)

theorem fitted_stretchOut (h : s.Fitted H) (run : (s.seg g).engine.isRun = true) : (s.stretchOut g a).Fitted H := by
  unfold State.stretchOut
  split <;> exact fitted_endAttempt h run

theorem fitted_loseArbitration {how : LossCause} (h : s.Fitted H) (run : (s.seg g).engine.isRun = true) :
    (s.loseArbitration g a how).Fitted H := by
  unfold State.loseArbitration
  split
  · exact fitted_endAttempt h run
  · split
    · exact fitted_endAttempt h run
    · exact fitted_setAttempt h run

theorem fitted_seeLow {scl : Bool} {f : Seg → Bool} (h : s.Fitted H) :
    (s.modSeg g fun v => v.seeLow scl (f v)).Fitted H := h.sees (seeLow_eq _ _ _) rfl rfl rfl rfl

theorem fitted_ownStop (h : s.Fitted H) : (s.modSeg g Seg.ownStop).Fitted H := h.sees (ownStop_eq _) rfl rfl rfl rfl

theorem fitted_completeStop {toCheck : Bool} (h : s.Fitted H) (run : (s.seg g).engine.isRun = true) :
    (s.completeStop g a toCheck).Fitted H :=
  fitted_endAttempt (fitted_ownStop h) (by rw [seg_modSeg, retime_engine, ownStop_eq]; exact run)

/-- A choice takes an engine from IDLE to RUN (R44, R47). -/
theorem fitted_choose {i : SlotId} (h : s.Fitted H) (idle : (s.seg g).engine = .idle) : (s.choose g i).Fitted H := by
  have slots : (s.withSlots (s.choose g i).slot).Fitted H := 
    h.of_same (fun q => port_withSlots s _ q) fun k => seg_withSlots s _ k
  obtain ⟨ready, recovery⟩ := (h.health g).settled (.inl idle)
  rw [choose_frame]
  refine slots.setSeg ?_ ?_
  · rw [seg_choose]
    refine Seg.HealthFits.retime ?_
    exact healthFits_of_settled (h.health g).pulses nofun ready recovery
  · rw [seg_choose, seg_withSlots]; rfl

/-! ## CHECK, IDLE, RECOVER and FAULT (R99 to R107) -/

theorem fitted_enterCheck (h : s.Fitted H) : (s.modSeg g Seg.enterCheck).Fitted H :=
  h.modSeg (healthFits_of_check (h.health g).pulses rfl) rfl

theorem fitted_enterIdle (h : s.Fitted H) : (s.enterIdle g).Fitted H := by
  have entered := enterIdle_setSeg h.served (g := g) (s.seg g)
  rw [setSeg_seg] at entered
  rw [entered]
  have port (q : PortId) := h.recovered (g := g) (h.ports q) rfl .done
  refine h.resolves (g := g) (fun q => ?_) (fun q e => ?_) ?_ ?_ fun k hk => ?_
  · rw [port_setSeg, port_withPorts]
    dsimp only
    split
    · exact ((port q).1.noticedIf _ _).1
    · exact (port q).1
  · rw [port_setSeg, port_withPorts]
    dsimp only
    split
    · rw [((port q).1.noticedIf _ _).2]; exact (port q).2 e
    · exact (port q).2 e
  · rw [seg_setSeg]
    refine Seg.HealthFits.retime ?_
    exact healthFits_of_settled (h.health g).pulses nofun rfl rfl
  · rw [seg_setSeg]; rfl
  · rw [seg_setSeg_ne _ _ hk, seg_withPorts]

/-- The entry into FAULT, whatever of the segment has changed before but its list and its recovery (R107). -/
theorem fitted_enterFault (h : s.Fitted H) (pool : s.PoolFits) {u : Seg} (list : u.list = (s.seg g).list)
    (recovery : u.recovery = (s.seg g).recovery) (pulses : u.pulseCount ≤ 9) : ((s.setSeg g u).enterFault g).Fitted H := by
  rw [enterFault_setSeg pool h.served list, recovery]
  have answered (q : PortId) : (s.faultPort g q).Fits (H q) ∧ (s.faultPort g q).booked = (s.port q).booked :=
    (h.ports q).queuedAll _ _
  have port (q : PortId) := h.recovered (g := g) (answered q).1 (answered q).2 .failed
  refine h.resolves (g := g) (fun q => ?_) (fun q e => ?_) ?_ ?_ fun k hk => ?_
  · rw [port_setSeg, port_withPorts]
    exact ((port q).1.noticedIf _ _).1
  · rw [port_setSeg, port_withPorts, ((port q).1.noticedIf _ _).2]
    exact (port q).2 e
  · rw [seg_setSeg]
    exact (healthFits_of_down (v := u.faulted) pulses (.inl rfl) rfl).retime
  · rw [seg_setSeg]; rfl
  · rw [seg_setSeg_ne _ _ hk, seg_withPorts, seg_withSlots]

theorem fitted_enterFault_now (h : s.Fitted H) (pool : s.PoolFits) : (s.enterFault g).Fitted H := by
  have := fitted_enterFault h pool (u := s.seg g) rfl rfl (h.health g).pulses
  rwa [setSeg_seg] at this

/-- A clock held low past its limit in RECOVER or a closing stop (R102, R105 to R107). -/
theorem fitted_faultLow (h : s.Fitted H) (pool : s.PoolFits) :
    ((s.modSeg g fun v => v.seeLow false v.sda).enterFault g).Fitted H := by
  rw [modSeg_eq, seeLow_eq]
  exact fitted_enterFault h pool rfl rfl (h.health g).pulses

/-- After a pulse, counted or not, or a stop that fails: one more pulse, or FAULT (R105, R106). -/
theorem fitted_pulseOrFault (h : s.Fitted H) (pool : s.PoolFits) {u : Seg} {scl : Bool} (list : u.list = (s.seg g).list)
    (recovery : u.recovery = (s.seg g).recovery) (pulses : u.pulseCount ≤ 9) :
    ((s.setSeg g u).pulseOrFault g scl).Fitted H := by
  unfold State.pulseOrFault
  rw [seg_setSeg]
  split
  · rw [modSeg_eq, seg_setSeg, setSeg_setSeg, seeLow_eq]
    exact fitted_enterFault h pool list recovery pulses
  · next few =>
    rw [modSeg_eq, seg_setSeg, setSeg_setSeg, drivePulse_eq]
    refine h.setSeg (Seg.HealthFits.retime ?_) recovery
    exact healthFits_of_recover (b := false) pulses rfl fun _ => Nat.lt_of_not_le few

/-- A SEG_SET that is not refused leaves no recovery outstanding in OFF (R109). -/
theorem fitted_applySetup {x : Setup} (h : s.Fitted H)
    (allowed : ¬(x.enable = false ∧ (s.seg g).disableRefused = true)) :
    (s.modSeg g fun v => v.applySetup x).Fitted H := by
  have health := h.health g
  unfold Seg.applySetup
  by_cases enable : x.enable = true
  · simp only [enable, if_true]
    refine h.modSeg ?_ ?_
    · split
      · exact healthFits_of_check health.pulses rfl
      · exact health.of_same rfl rfl rfl rfl
    · split <;> rfl
  · simp only [enable]
    refine h.modSeg (healthFits_of_down health.pulses (.inr rfl) (Option.not_isSome_iff_eq_none.mp fun outstanding => ?_)) rfl
    refine allowed ⟨Bool.eq_false_iff.mpr enable, disableRefused_iff.mpr (.inr (.inr ⟨fun off => ?_, .inr outstanding⟩))⟩
    rcases health.outstanding outstanding with ⟨b, e⟩ | ⟨b, e⟩ <;> rw [off] at e <;> cases e

/-! ## A recovery is asked for (R104, R111, R164) -/

/-- The entry held for the reply stays reserved, now for the recovery of a segment. -/
theorem Port.Fits.books {v : Port} {K : StoreIx → Prop} (h : v.Fits K) (held : K e) (g : SegId) :
    (v.setEntry e (some { StoreEntry.reserve .mreply with reservedFor := some g })).Fits fun f => K f ∧ f ≠ e := by
  obtain ⟨x, hx, _⟩ := h.stock.held e held
  have waits : x.condition = .reserved := (h.stock.reserved e x hx).mpr (.inr held)
  obtain ⟨line, stock⟩ := h
  refine ⟨line.of_keeps ⟨rfl, rfl, rfl, rfl, .inl rfl⟩ line.served, stock.single, fun f => (stock.listed f).trans ?_,
    stock.sending, fun f => Iff.trans ?_ (stock.head f), fun f y => ?_, fun f hf => ?_, stock.message, fun s f hs hp => ?_⟩
  all_goals simp only [Port.setEntry, store_set]
  · by_cases hf : f = e
    · simp [hf, hx, waits, StoreEntry.reserve]
    · rw [if_neg hf]
  · by_cases hf : f = e
    · simp [hf, hx, waits, StoreEntry.reserve]
    · rw [if_neg hf]
  · by_cases hf : f = e
    · rw [if_pos hf]; rintro ⟨⟩; simp [StoreEntry.reserve]
    · rw [if_neg hf]; simpa [hf] using stock.reserved f y
  · rw [if_neg hf.2]; exact stock.held f hf.1
  · obtain ⟨y, hy, hk, hc⟩ := stock.reply s f hs hp
    refine ⟨y, ?_, hk, hc⟩
    rw [if_neg, hy]
    rintro rfl
    rw [hx] at hy; cases hy
    exact hc waits

theorem fitted_startRecovery (h : s.Fitted (holdOf p e)) (free : (s.seg g).recovery = none) :
    (s.startRecovery p e tag g).Fitted noHold := by
  have fits := (h.ports p).books ⟨rfl, rfl⟩ g
  have unbooked : (s.port p).booked e = none := booked_of_held (h.ports p).stock ⟨rfl, rfl⟩
  unfold State.startRecovery
  rw [modSeg_eq, enterRecover_eq, State.modPort, seg_setPort]
  generalize hw : (s.port p).setEntry e (some { StoreEntry.reserve .mreply with reservedFor := some g }) = w at fits
  generalize hu : (s.seg g).retime ({ s.seg g with recovery := some ⟨p, tag⟩ } : Seg).recovering = u
  have recovery : u.recovery = some ⟨p, tag⟩ := by rw [← hu]; rfl
  have port (q : PortId) : ((s.setPort p w).setSeg g u).port q = if q = p then w else s.port q := by
    rw [port_setSeg, port_setPort_eq]
  have seg (k : SegId) : ((s.setPort p w).setSeg g u).seg k = if k = g then u else s.seg k := by
    rw [seg_setSeg_eq, seg_setPort]
  have booked (q : PortId) (f : StoreIx) : (((s.setPort p w).setSeg g u).port q).booked f =
      if q = p ∧ f = e then some g else (s.port q).booked f := by
    rw [port]
    by_cases hq : q = p
    · rw [if_pos hq, ← hw, booked_setEntry, hq]
      simp
    · rw [if_neg hq, if_neg fun c => hq c.1]
  have other {q : PortId} {f : StoreIx} {k : SegId} (hb : (s.port q).booked f = some k) : k ≠ g := fun hk => by
    have := h.asked q f k hb
    rw [hk, free] at this; cases this
  refine ⟨fun q => ?_, fun k => ?_, fun q f k => ?_, fun k r => ?_, fun q k f f' => ?_⟩
  · rw [port]
    split
    · next hq => exact hq ▸ fits.congr fun f => ⟨False.elim, fun hf => hf.2 hf.1.2⟩
    · next hq => exact (h.ports q).congr fun f => ⟨False.elim, fun hf => hq hf.1⟩
  · rw [seg]
    split
    · rw [← hu]
      exact (healthFits_of_recover (b := false) (Nat.zero_le 9) rfl fun _ => (by decide : 0 < 9)).retime
    · exact h.health k
  · rw [booked, seg]
    split
    · next hq => rintro ⟨⟩; rw [if_pos rfl, recovery, hq.1]; rfl
    · intro hb; rw [if_neg (other hb)]; exact h.asked q f k hb
  · rw [seg]
    split
    · next hk =>
      rw [recovery]
      rintro ⟨⟩
      exact ⟨e, by rw [booked, if_pos ⟨rfl, rfl⟩, hk]⟩
    · intro hr
      obtain ⟨f, hf⟩ := h.kept k r hr
      refine ⟨f, ?_⟩
      rw [booked, if_neg, hf]
      rintro ⟨hp, rfl⟩
      rw [hp, unbooked] at hf; cases hf
  · rw [booked, booked]
    split
    · next hf =>
      rintro ⟨⟩
      split
      · next hf' => exact fun _ => hf.2.trans hf'.2.symm
      · exact fun hb => absurd rfl (other hb)
    · intro hb
      split
      · rintro ⟨⟩; exact absurd rfl (other hb)
      · exact fun hb' => h.once q k f f' hb hb'

end

end Sys2Proof.Machine
end

section
/-! SUPPORT. What the operations of a port's line keep of the stores: switch points, breaks, port restarts, and the completion of
a message (R39, R124 to R130, R161, R168, R190). -/
namespace Sys2Proof.Machine

/-! ## A pending switch (R129) -/

section
variable {v : Port} {K : StoreIx → Prop} {e : StoreIx} {x : StoreEntry}

/-- A switch is pending whose switch point is to come. -/
theorem Port.StockFits.awaits (h : v.StockFits K) (w : PendingSwitch) (message : w.point = .messageSent → v.tx = .sending)
    (reply : ∀ e, w.point = .replySent e → ∃ x, v.store[e] = some x ∧ x.kind = .mreply ∧ x.condition ≠ .reserved) :
    ({ v with pendingSwitch := some w } : Port).StockFits K where
  single := h.single
  listed := h.listed
  sending := h.sending
  head := h.head
  reserved := h.reserved
  held := h.held
  message u hu hp := by cases hu; exact message hp
  reply u f hu hp := by cases hu; exact reply f hp

theorem store_sends (v : Port) (ready : x.condition = .ready) :
    ∃ y, (v.sends e x).store[e] = some y ∧ y.kind = x.kind ∧ y.condition ≠ .reserved := by
  unfold Port.sends
  split
  · exact ⟨_, (store_set v _).trans (if_pos rfl), rfl, nofun⟩
  · exact ⟨x, (store_set v _).trans (if_pos rfl), rfl, by rw [ready]; nofun⟩

theorem sends_switching (v : Port) (w : PendingSwitch) :
    ({ v with pendingSwitch := some w } : Port).sends e x = { v.sends e x with pendingSwitch := some w } := by
  unfold Port.sends
  split <;> rfl

/-- The reply whose completion is the switch point is composed in the command that makes the switch pending (R129). -/
theorem Port.Fits.switching (h : v.Fits K) (held : K e) (ready : x.condition = .ready) (plain : x.reservedFor = none)
    (kind : x.kind = .mreply) (f : LineFormat) :
    (({ v with pendingSwitch := some ⟨f, .replySent e⟩ } : Port).sends e x).Fits fun f => K f ∧ f ≠ e := by
  obtain ⟨line, stock⟩ := h.sends (not_queued_of_held h.stock held) ready plain
  rw [sends_switching]
  refine ⟨line.of_keeps ⟨rfl, rfl, rfl, rfl, .inl rfl⟩ line.served, stock.awaits _ nofun fun e' he => ?_⟩
  cases he
  obtain ⟨y, hy, hk, hc⟩ := store_sends v ready
  exact ⟨y, hy, hk.trans kind, hc⟩

end

section
variable {s t : State} {H : PortId → StoreIx → Prop} {p q : PortId} {e : StoreIx} {f : LineFormat} {item : Item}
  {rest : List Item}

/-! ## The end of a break (R126, R127) -/

/-- The end of a break changes its port alone. -/
theorem endBreak_eq (served : (s.port p).Served) :
    s.endBreak p = s.setPort p ((s.port p).unbroken.serve fun i => (s.slot i).resultFrame) := by
  have ready : ((s.modPort p fun v => { v.atMark with assembly := Assembly.idle }).port p).Served := by
    rw [State.modPort, port_setPort]; exact served
  unfold State.endBreak
  rw [notice_eq ready, give_eq_serve]
  simp only [State.modPort, port_setPort, setPort_setPort, slot_setPort]
  rfl

theorem fitted_endBreak (h : s.Fitted H) (hold : (s.port p).receiver = .breakHold) : (s.endBreak p).Fitted H := by
  rw [endBreak_eq (h.served p)]
  obtain ⟨fits, booked⟩ := fits_unbroken (fun i => (s.slot i).resultFrame) (h.ports p) hold
  exact h.setPort fits booked

theorem fitted_endBreakIfMark (h : s.Fitted H) : (s.endBreakIfMark p).Fitted H := by
  unfold State.endBreakIfMark
  split
  · next hold => exact fitted_endBreak h hold.1
  · exact h

/-! ## Switch points (R128 to R130) -/

theorem fitted_switchNow (h : s.Fitted H) : (s.switchNow q f).Fitted H := by
  unfold State.switchNow
  split
  · exact fitted_endBreakIfMark (h.setPort (fits_applyInHold (h.ports q) f) rfl)
  · next free =>
    rw [State.modPort, applySwitch_eq]
    exact h.setPort (fits_switched (h.ports q) free f) rfl

/-- A line format that is set, ahead of the reply (R128, R129). -/
theorem fitted_setFormat_mreply {tag op : Byte} {status : MgmtStatus} {reply : List Byte} (h : s.Fitted (holdOf p e)) :
    ((s.setFormat p q e f).mreply p e tag op status reply).Fitted noHold := by
  unfold State.setFormat
  split
  · exact fitted_mreply h
  split
  · next own =>
    subst own
    have fits := h.ports q
    have held : holdOf q e q e := ⟨rfl, rfl⟩
    have served : ((s.modPort q fun v => { v with pendingSwitch := some ⟨f, .replySent e⟩ }).port q).Served := by
      rw [State.modPort, port_setPort]; exact fits.served
    rw [mreply_eq_sends served, State.sends, State.modPort, port_setPort, setPort_setPort]
    refine h.setPort_holding ((fits.switching held rfl rfl rfl f).congr fun f => ?_) (fun k hk => ?_) ?_
    · exact ⟨False.elim, fun hf => hf.2 hf.1.2⟩
    · exact funext fun f => propext ⟨False.elim, fun hf => hk hf.1⟩
    · rw [sends_switching]
      exact booked_sends_of_unbooked (booked_of_held fits.stock held) rfl
  split
  · next sending =>
    have fits := h.ports q
    refine fitted_mreply (h.setPort ⟨fits.line.of_keeps ⟨rfl, rfl, rfl, rfl, .inl rfl⟩ fits.served, ?_⟩ rfl)
    exact fits.stock.awaits _ (fun _ => sending) nofun
  · exact fitted_mreply (fitted_switchNow h)

/-! ## The port restart (R39, R112, R124, R168) -/

/-- A segment whose recovery may have been dropped (R112). -/
theorem Seg.HealthFits.dropped {v w : Seg} (h : v.HealthFits) (engine : w.engine = v.engine)
    (pulses : w.pulseCount = v.pulseCount) (ready : w.readyOwed = v.readyOwed)
    (recovery : w.recovery = v.recovery ∨ w.recovery = none) : w.HealthFits := by
  rcases recovery with same | none
  · exact h.of_same engine pulses ready same
  · exact ⟨pulses ▸ h.pulses, by rw [engine, pulses]; exact h.pulsing, by rw [ready, engine]; exact h.ready,
      fun some => by rw [none] at some; cases some⟩

/-- A break drops the recovery that its port asked for, and no other (R112, R124). -/
theorem recovery_broken (s : State) (p : PortId) (g : SegId) : ((s.broken p).seg g).recovery =
    if (s.seg g).recovery.map Recovery.port = some p then none else (s.seg g).recovery := by
  rw [seg_broken]; rfl

theorem fitted_broken (h : s.Fitted noHold) : (s.broken p).Fitted noHold := by
  have other {q : PortId} {e : StoreIx} {g : SegId} (hb : ((s.broken p).port q).booked e = some g) :
      q ≠ p ∧ (s.port q).booked e = some g := by
    rw [port_broken] at hb
    split at hb
    · rw [booked_of_empty rfl] at hb; cases hb
    · next hq => exact ⟨hq, hb⟩
  refine ⟨fun q => ?_, fun g => ?_, fun q e g hb => ?_, fun g r hr => ?_, fun q g e f he hf => ?_⟩
  · rw [port_broken]
    split
    · exact fits_broken _
    · exact h.ports q
  · refine (h.health g).dropped ?_ ?_ ?_ ?_
    · rw [seg_broken]; rfl
    · rw [seg_broken]; rfl
    · rw [seg_broken]; rfl
    · rw [recovery_broken]
      split
      · exact .inr rfl
      · exact .inl rfl
  · obtain ⟨hq, hb⟩ := other hb
    have asked := h.asked q e g hb
    rw [recovery_broken, if_neg (by rw [asked]; exact fun c => hq (Option.some.inj c)), asked]
  · rw [recovery_broken] at hr
    split at hr
    · cases hr
    · next hp =>
      obtain ⟨e, he⟩ := h.kept g r hr
      refine ⟨e, ?_⟩
      rw [port_broken, if_neg, he]
      rintro rfl
      exact hp (by rw [hr]; rfl)
  · exact h.once q g e f (other he).2 (other hf).2

theorem fitted_portRestart (h : s.Fitted noHold) (pool : s.PoolFits) : (s.portRestart p).Fitted noHold := by
  rw [portRestart_eq pool]; exact fitted_endBreakIfMark (fitted_broken h)

/-! ## Reset and restart (R115, R133, R190) -/

/-- In a part whose ports are at their reset values, the stores fit when the health records do. -/
theorem storesFit_of_reset (ports : ∀ p, ∃ hrx, t.port p = Port.reset hrx) (a : t.segA.healthFitsB = true)
    (b : t.segB.healthFitsB = true) (ha : t.segA.recovery = none) (hb : t.segB.recovery = none) : t.StoresFit := by
  refine storesFit_of (fun p => ?_) (fun p => ?_) (fun p => ?_) a b ha hb <;> obtain ⟨hrx, port⟩ := ports p <;> rw [port]
  · exact Port.lineFits_of_quiet rfl rfl rfl (.inr rfl) nofun fun _ => rfl
  · exact Port.storeFits_of_empty rfl (fun _ => rfl) nofun rfl
  · rfl

theorem storesFit_inReset (s : State) : s.inReset.StoresFit :=
  storesFit_of_reset (fun p => ⟨_, port_inReset s p⟩) rfl rfl rfl rfl

theorem healthFitsB_restarted (l : Levels) : (Seg.restarted l).healthFitsB = true := by
  rw [restarted_eq l true true]; rfl

theorem recovery_restarted (l : Levels) : (Seg.restarted l).recovery = none :=
  congrArg Seg.recovery (restarted_eq l true true)

theorem storesFit_started (s : State) (a b : Levels) : (s.started a b).StoresFit :=
  storesFit_of_reset (fun p => ⟨_, port_inReset s p⟩) (healthFitsB_restarted a) (healthFitsB_restarted b)
    (recovery_restarted a) (recovery_restarted b)

/-! ## The completion of a message, and of a character that a break let finish (R119, R124, R161) -/

theorem switchAt_sent : (s.setPort p ((s.port p).sent item rest)).switchAt p item =
    s.setPort p ((s.port p).completed item rest) := by
  have pending : ((s.setPort p ((s.port p).sent item rest)).port p).pendingSwitch = (s.port p).pendingSwitch := by
    rw [port_setPort]; rfl
  unfold Port.completed
  split
  · next w hw =>
    split
    · next reached => rw [switchAt_of_pending (pending.trans hw) reached, port_setPort, setPort_setPort]
    · next unreached =>
      refine switchAt_of_not_reached fun w' hw' => ?_
      rw [pending, hw] at hw'; cases hw'
      exact Bool.eq_false_iff.mpr unreached
  · next hw =>
    refine switchAt_of_not_reached fun w' hw' => ?_
    rw [pending, hw] at hw'; cases hw'

theorem fitted_complete (h : s.Fitted noHold) (ht : (s.port p).tx = .sending) (hq : (s.port p).queue = item :: rest) :
    (s.complete p item rest).Fitted noHold := by
  have freed : (s.resultFreed item).Fitted noHold := by
    cases item with
    | result i => exact h.setSlot _
    | entry e => exact h
  have port : (s.resultFreed item).port p = s.port p := by cases item <;> rfl
  unfold State.complete
  rw [releaseItem_eq, ← port, switchAt_sent]
  dsimp only
  split
  · exact fitted_iff.mp (storesFit_started _ _ _)
  · rw [give_eq_serve, port_setPort, setPort_setPort, port]
    refine freed.setPort (fits_completed _ (h.ports p) ht hq) ?_
    rw [booked_serve, port]
    exact booked_completed (h.ports p).stock hq

theorem fitted_finishCharacter (h : s.Fitted H) (finishing : (s.port p).tx = .finishing) :
    ((s.modPort p Port.finishCharacter).give p).Fitted H := by
  rw [give_eq_serve, State.modPort, port_setPort, setPort_setPort]
  exact h.setPort (fits_finishCharacter _ (h.ports p) finishing) (booked_serve _ _)

end

end Sys2Proof.Machine
end

section
/-! SUPPORT. Every message that is handed on keeps the stores fitted (R27, R50, R128, R137 to R147, R163, R173 to R189). -/
namespace Sys2Proof.Machine

section
variable {s : State} {H : PortId → StoreIx → Prop} {p : PortId} {e : StoreIx} {tag kind op : Byte} {args body : List Byte}
  {g : SegId} {a : Attempt}

/-! ## The operations of the management unit (R173 to R189) -/

theorem fitted_badarg (h : s.Fitted (holdOf p e)) : (s.badarg p e tag op).Fitted noHold := fitted_mreply h

theorem fitted_setMapEntry {u : TargetId} {x : MapEntry} (h : s.Fitted H) : (s.setMapEntry u x).Fitted H :=
  h.of_same (fun _ => rfl) fun k => seg_setMapEntry s u x k

theorem fitted_mapWrite (h : s.Fitted (holdOf p e)) : (s.mapWrite p e tag args).Fitted noHold := by
  unfold State.mapWrite
  split
  · split
    · exact fitted_mreply (fitted_noticeTo _ (fitted_setMapEntry h))
    · exact fitted_badarg h
  · exact fitted_badarg h

theorem fitted_mapRead (h : s.Fitted (holdOf p e)) : (s.mapRead p e tag args).Fitted noHold := by
  unfold State.mapRead
  split
  · split
    · exact fitted_mreply h
    · exact fitted_badarg h
  · exact fitted_badarg h

theorem fitted_retireEntry {u : TargetId} {purge : Bool} (h : s.Fitted H) : (s.retireEntry p u purge).Fitted H := by
  have invalid := fitted_setMapEntry (u := u) (x := { s.mapEntry u with valid := false }) h
  have purged : (if purge then (s.setMapEntry u { s.mapEntry u with valid := false }).purge u
      else s.setMapEntry u { s.mapEntry u with valid := false }).Fitted H := by
    split
    · exact fitted_purge invalid
    · exact invalid
  unfold State.retireEntry
  dsimp only
  split
  · exact fitted_noticeTo _ purged
  · exact purged

theorem fitted_mapRetire (h : s.Fitted (holdOf p e)) : (s.mapRetire p e tag args).Fitted noHold := by
  unfold State.mapRetire
  split
  · split
    · exact fitted_mreply (fitted_retireEntry h)
    · exact fitted_badarg h
  · exact fitted_badarg h

theorem fitted_setProfile_mreply {q : PortId} {x : Profile} {status : MgmtStatus} {reply : List Byte}
    (h : s.Fitted (holdOf p e)) : ((s.setProfile p q e x).mreply p e tag op status reply).Fitted noHold := by
  have managed : ({ s with managers := withPort s.managers q x.privilege } : State).Fitted (holdOf p e) :=
    h.of_same (fun _ => rfl) fun _ => rfl
  exact fitted_setFormat_mreply
    (managed.setPort ((managed.ports q).counted ⟨rfl, rfl, rfl, rfl, .inl rfl⟩ rfl rfl rfl rfl) rfl)

theorem fitted_portSet (h : s.Fitted (holdOf p e)) : (s.portSet p e tag args).Fitted noHold := by
  unfold State.portSet
  split
  · split
    · split
      · exact fitted_mreply h
      · split
        · exact fitted_mreply h
        · exact fitted_setProfile_mreply h
    · exact fitted_badarg h
  · exact fitted_badarg h

theorem fitted_portRead (h : s.Fitted (holdOf p e)) : (s.portRead p e tag args).Fitted noHold := by
  unfold State.portRead
  split
  · split
    · exact fitted_mreply h
    · exact fitted_badarg h
  · exact fitted_badarg h

theorem fitted_segSet (h : s.Fitted (holdOf p e)) : (s.segSet p e tag args).Fitted noHold := by
  unfold State.segSet
  split
  · split
    · split
      · exact fitted_mreply h
      · next allowed => exact fitted_mreply (fitted_applySetup h allowed)
    · exact fitted_badarg h
  · exact fitted_badarg h

theorem fitted_setHeld {held : Bool} (h : s.Fitted (holdOf p e)) : (s.setHeld p e tag op g held).Fitted noHold := by
  unfold State.setHeld
  split
  · exact fitted_mreply h
  · exact fitted_mreply (h.setSeg ((h.health g).of_same rfl rfl rfl rfl) rfl)

theorem fitted_segHold (h : s.Fitted (holdOf p e)) : (s.segHold p e tag args).Fitted noHold := by
  unfold State.segHold
  split
  · split
    · exact fitted_setHeld h
    · exact fitted_badarg h
  · exact fitted_badarg h

theorem fitted_segRelease (h : s.Fitted (holdOf p e)) : (s.segRelease p e tag args).Fitted noHold := by
  unfold State.segRelease
  split
  · split
    · exact fitted_setHeld h
    · exact fitted_badarg h
  · exact fitted_badarg h

theorem recovery_of_allowed {v : Seg} (allowed : v.recoverRefusal = none) : v.recovery = none := by
  unfold Seg.recoverRefusal at allowed
  split at allowed
  · cases allowed
  · next free => exact Option.not_isSome_iff_eq_none.mp free

theorem fitted_segRecover (h : s.Fitted (holdOf p e)) : (s.segRecover p e tag args).Fitted noHold := by
  unfold State.segRecover
  split
  · split
    · split
      · exact fitted_mreply h
      · next allowed => exact fitted_startRecovery h (recovery_of_allowed allowed)
    · exact fitted_badarg h
  · exact fitted_badarg h

theorem fitted_resetRun (h : s.Fitted H) (run : (s.seg g).engine.isRun = true) : (s.resetRun g a).Fitted H := by
  have counted : ({ s with freeCount := s.freeCount + 1 } : State).Fitted H := h.of_same (fun _ => rfl) fun _ => rfl
  unfold State.resetRun
  split
  · exact fitted_endAttempt h run
  · split
    · unfold State.abort
      split
      · exact counted.modSeg ((h.health g).of_run run nofun rfl rfl rfl) rfl
      · exact h.modSeg ((h.health g).of_run run nofun rfl rfl rfl) rfl
    · exact fitted_endAttempt h run

/-- A reply touches no segment (R173). -/
theorem seg_mreply {status : MgmtStatus} {reply : List Byte} (served : (s.port p).Served) (k : SegId) :
    (s.mreply p e tag op status reply).seg k = s.seg k := by
  rw [mreply_eq_sends served, State.sends, seg_setPort]

theorem fitted_segReset (h : s.Fitted (holdOf p e)) : (s.segReset p e tag args).Fitted noHold := by
  unfold State.segReset
  split
  · split
    · split
      · next running =>
        refine fitted_resetRun (fitted_mreply h) ?_
        rw [seg_mreply (h.served p)]; exact isRun_of running
      · exact fitted_mreply (fitted_enterCheck h)
      · exact fitted_mreply (fitted_enterCheck h)
      · exact fitted_mreply h
      · exact fitted_mreply h
      · exact fitted_mreply h
    · exact fitted_badarg h
  · exact fitted_badarg h

theorem fitted_clearCounters {x : Selector} (h : s.Fitted H) : (s.clearCounters x).Fitted H := by
  cases x with
  | port q => exact h.setPort ((h.ports q).counted ⟨rfl, rfl, rfl, rfl, .inl rfl⟩ rfl rfl rfl rfl) rfl
  | seg g => exact h.setSeg ((h.health g).of_same rfl rfl rfl rfl) rfl
  | pool => exact h

theorem fitted_statusRead (h : s.Fitted (holdOf p e)) : (s.statusRead p e tag args).Fitted noHold := by
  unfold State.statusRead
  split
  · split
    · refine fitted_mreply ?_
      split
      · exact fitted_clearCounters h
      · exact h
    · exact fitted_badarg h
  · exact fitted_badarg h

theorem fitted_restartOp (h : s.Fitted (holdOf p e)) : (s.restartOp p e tag args).Fitted noHold := by
  unfold State.restartOp
  split
  · exact fitted_compose h rfl rfl
  · exact fitted_badarg h

theorem fitted_ite {P : Prop} [Decidable P] {s t : State} (hs : P → s.Fitted H) (ht : ¬P → t.Fitted H) :
    (if P then s else t).Fitted H := by
  split
  · next hp => exact hs hp
  · next hp => exact ht hp

/-- A command that acts only on a condition. -/
theorem fitted_when {P : Prop} [Decidable P] {t : State} (h : s.Fitted H) (ht : P → t.Fitted H) :
    (if P then t else s).Fitted H := fitted_ite ht fun _ => h

theorem fitted_mgmtOp (h : s.Fitted (holdOf p e)) : (s.mgmtOp p e tag op args).Fitted noHold :=
  fitted_ite (fun _ => fitted_mapWrite h) fun _ => fitted_ite (fun _ => fitted_mapRead h) fun _ =>
  fitted_ite (fun _ => fitted_mapRetire h) fun _ => fitted_ite (fun _ => fitted_portSet h) fun _ =>
  fitted_ite (fun _ => fitted_portRead h) fun _ => fitted_ite (fun _ => fitted_segSet h) fun _ =>
  fitted_ite (fun _ => fitted_segHold h) fun _ => fitted_ite (fun _ => fitted_segRelease h) fun _ =>
  fitted_ite (fun _ => fitted_segRecover h) fun _ => fitted_ite (fun _ => fitted_segReset h) fun _ =>
  fitted_ite (fun _ => fitted_statusRead h) fun _ => fitted_ite (fun _ => fitted_restartOp h) fun _ => fitted_refuse h

/-! ## The messages of a host (R25, R144 to R147) -/

theorem fitted_takeTxn (h : s.Fitted noHold) : (s.takeTxn p tag body).Fitted noHold := by
  unfold State.takeTxn
  split
  · exact ((h.setSlot _).setList _).of_same (fun _ => rfl) fun _ => rfl
  · exact fitted_gatedRefuse h

theorem fitted_cancelNamed {named : Byte} (h : s.Fitted (holdOf p e)) : (s.cancelNamed p e tag named).Fitted noHold := by
  unfold State.cancelNamed
  split
  · exact fitted_canreply h
  · split
    · exact fitted_withdraw (fitted_canreply h)
    · exact fitted_canreply h

theorem fitted_takeCancel (h : s.Fitted noHold) : (s.takeCancel p tag body).Fitted noHold :=
  fitted_gate h fun e t ht => by
    split
    · exact fitted_cancelNamed ht
    · exact fitted_refuse ht

theorem fitted_takeMgmt (h : s.Fitted noHold) : (s.takeMgmt p tag body).Fitted noHold :=
  fitted_gate h fun e t ht => by
    split
    · exact fitted_refuse ht
    · split
      · exact fitted_refuse ht
      · exact fitted_mgmtOp ht

theorem fitted_takeMessage (h : s.Fitted noHold) : (s.takeMessage p kind tag body).Fitted noHold := by
  have counted : (s.modPort p fun v =>
      { v with counters := { v.counters with accepted := bump v.counters.accepted } }).Fitted noHold :=
    h.setPort ((h.ports p).counted ⟨rfl, rfl, rfl, rfl, .inl rfl⟩ rfl rfl rfl rfl) rfl
  exact fitted_ite (fun _ => fitted_gatedRefuse counted) fun _ => fitted_ite (fun _ => fitted_takeTxn counted) fun _ =>
    fitted_ite (fun _ => fitted_takeCancel counted) fun _ => fitted_ite (fun _ => fitted_takeMgmt counted) fun _ =>
    fitted_gatedRefuse counted

/-! ## Message assembly (R136 to R143) -/

theorem fitted_judgeFrame {crc : BitVec 16} (h : s.Fitted noHold) : (s.judgeFrame p kind tag body crc).Fitted noHold := by
  have idle : (s.modPort p fun v => { v with assembly := Assembly.idle }).Fitted noHold := h.setPort (fits_idle (h.ports p)) rfl
  exact fitted_ite (fun _ => fitted_takeMessage idle) fun _ =>
    idle.setPort ((idle.ports p).counted ⟨rfl, rfl, rfl, rfl, .inl rfl⟩ rfl rfl rfl rfl) rfl

theorem open_free {v : Port} (hears : v.receiver.open = true) : v.receiver ≠ .breakHold :=
  ((receiver_open_iff _).mp hears).2

theorem fitted_completeFrame {crc : BitVec 16} (h : s.Fitted noHold) :
    (s.completeFrame p kind tag body crc).Fitted noHold :=
  fitted_when h fun hears => by
    obtain ⟨_, free, _⟩ := (canComplete_iff _ _).mp hears.2
    exact fitted_judgeFrame (h.setPort (fits_goodEnd (h.ports p) free) rfl)

theorem fitted_completeMessage (h : s.Fitted noHold) : (s.completeMessage p kind tag body).Fitted noHold :=
  fitted_completeFrame h

theorem fitted_judgeBuffer (h : s.Fitted noHold) (buffer : List Byte) : (s.judgeBuffer p buffer).Fitted noHold := by
  unfold State.judgeBuffer
  split
  · split
    · exact fitted_judgeFrame h
    · exact h
  · exact h

/-- A byte taken in receiving abandons the frame, completes it, or joins it (R138). -/
theorem fitted_receiveByte (h : s.Fitted noHold) (free : (s.port p).receiver ≠ .breakHold)
    (receiving : (s.port p).assembly.state = .receiving) (b : Byte) : (s.receiveByte p b).Fitted noHold := by
  refine fitted_ite (fun _ => h.setPort (fits_assemblyError (h.ports p) free) ?_) fun short =>
    fitted_ite (fun _ => fitted_judgeBuffer h _) fun more => ?_
  · obtain ⟨c, hc⟩ := countAbandoned_eq (s.port p)
    rw [Port.assemblyError, hc]; rfl
  · have grown := (h.ports p).line.assembly.take receiving short (Bool.eq_false_iff.mpr more)
    exact h.setPort (fits_assembly (h.ports p) free grown rfl rfl rfl rfl rfl rfl rfl rfl) rfl

theorem fitted_assembleByte (h : s.Fitted noHold) (free : (s.port p).receiver ≠ .breakHold) (b : Byte) :
    (s.assembleByte p b).Fitted noHold := by
  unfold State.assembleByte
  split
  · split
    · next lead =>
      subst lead
      exact h.setPort (fits_assembly (h.ports p) free assembly_lead_fits rfl rfl rfl rfl rfl rfl rfl rfl) rfl
    · exact h.setPort ((h.ports p).counted ⟨rfl, rfl, rfl, rfl, .inl rfl⟩ rfl rfl rfl rfl) rfl
  · next receiving => exact fitted_receiveByte h free receiving b
  · exact h

theorem fitted_characterError (h : s.Fitted noHold) (free : (s.port p).receiver ≠ .breakHold) (atMark : Bool) :
    (s.modPort p fun v => v.characterError atMark).Fitted noHold :=
  h.setPort (fits_characterError (h.ports p) free atMark) (by dsimp only; rw [characterError_eq]; rfl)

theorem fitted_endCharacter (h : s.Fitted noHold) (free : (s.port p).receiver ≠ .breakHold) (c : RxChar) :
    (s.endCharacter p c).Fitted noHold := by
  unfold State.endCharacter
  dsimp only
  split
  · refine fitted_assembleByte (h.setPort (fits_goodEnd (h.ports p) free) rfl) ?_ _
    rw [port_setPort]; nofun
  · exact fitted_characterError h free _
  · split
    · exact fitted_characterError h free true
    · exact h.setPort (fits_watchBreak (h.ports p) free) rfl

end

end Sys2Proof.Machine
end

section
/-! SUPPORT. Every command, and so every step, keeps the stores fitted (R99, R119, R129, R136, R158, R160, R162, R164). -/
namespace Sys2Proof.Machine

section
variable {s t : State} {g : SegId} {p : PortId}

/-- A command that acts while RESETN is high and keeps the stores fitted there. -/
theorem storesFit_of_running {f : State → State} (h : s.StoresFit) (hn : s.running f = .next t)
    (hf : s.Fitted noHold → (f s).Fitted noHold) : t.StoresFit := by
  unfold State.running at hn
  split at hn <;> cases hn
  · exact fitted_iff.mpr (hf (fitted_iff.mp h))
  · exact h

theorem storesFit_of_message {kind tag : Byte} {body : List Byte} (h : s.StoresFit)
    (hn : (s.running fun s => s.completeMessage p kind tag body) = .next t) : t.StoresFit :=
  storesFit_of_running h hn fitted_completeMessage

/-- The stop of an attempt completes, or there is no such event (R64, R73 to R77). -/
theorem fitted_stopped {failure : Option FailKind} {toCheck : Bool} (h : s.Fitted noHold) :
    (s.inRun g fun a => if a.stopsWith failure then s.completeStop g a toCheck else s).Fitted noHold :=
  fitted_inRun h fun _ running => fitted_when h fun _ => fitted_completeStop h (isRun_of running)

theorem deviceResetEnd_keeps_stores {a b : Levels} (h : s.StoresFit) (hn : execDeviceResetEnd a b s = .next t) :
    t.StoresFit := by
  unfold execDeviceResetEnd at hn
  split at hn <;> cases hn
  · exact h
  · exact storesFit_started s a b

/-! ## Commands of a segment's engine and monitor -/

theorem lineLow_keeps_stores {l : Levels} (h : s.StoresFit) (hn : execLineLow g l s = .next t) : t.StoresFit :=
  storesFit_of_running h hn fun h => by
    split
    · exact h
    · have met := fitted_meetStart (g := g) (fitted_seeLow (g := g) (scl := l.clock) (f := fun _ => l.data) h)
      exact fitted_ite (fun _ => met) fun _ => fitted_meetClockLow met

/-- What the lines show leaves an engine in RUN. -/
theorem isRun_modSeg {f : Seg → Seg} {w : Seg} {a : Attempt} (running : (s.seg g).engine = .run a)
    (sees : f (s.seg g) = w) (engine : w.engine = (s.seg g).engine) : ((s.modSeg g f).seg g).engine.isRun = true :=
  isRun_of ((engine_modSeg sees engine).trans running)

theorem stretchTimeout_keeps_stores (h : s.StoresFit) (hn : execStretchTimeout g s = .next t) : t.StoresFit :=
  storesFit_of_running h hn fun h => fitted_inRun h fun _ running => fitted_ite (fun _ => h) fun _ =>
    fitted_stretchOut (fitted_seeLow h) (isRun_modSeg running (seeLow_eq ..) rfl)

theorem arbitrationLost_keeps_stores {how : LossCause} (h : s.StoresFit) (hn : execArbitrationLost g how s = .next t) :
    t.StoresFit :=
  storesFit_of_running h hn fun h => fitted_inRun h fun _ running => fitted_when h fun _ => by
    cases how with
    | dataLow bit data =>
      exact fitted_loseArbitration (h.sees (seeLow_eq ..) rfl rfl rfl rfl) (isRun_modSeg running (seeLow_eq ..) rfl)
    | clockFell =>
      exact fitted_loseArbitration (h.sees (seeLow_eq ..) rfl rfl rfl rfl) (isRun_modSeg running (seeLow_eq ..) rfl)

theorem busyLongTimerExpiry_keeps_stores (h : s.StoresFit) (hn : execBusyLongTimerExpiry g s = .next t) : t.StoresFit :=
  storesFit_of_running h hn fun h => fitted_when h fun _ => by
    have stopped : (s.setSeg g { s.seg g with busyLongTimer := none }).Fitted noHold :=
      h.setSeg ((h.health g).of_same rfl rfl rfl rfl) rfl
    refine fitted_ite (fun _ => stopped) fun _ => fitted_noticeTo _ ?_
    exact stopped.setSeg ((stopped.health g).of_same rfl rfl rfl rfl) rfl

theorem quietTimerExpiry_keeps_stores (h : s.StoresFit) (hn : execQuietTimerExpiry g s = .next t) : t.StoresFit :=
  storesFit_of_running h hn fun h => fitted_when h fun _ => by
    refine fitted_ite (fun _ => h.modSeg ?_ ?_) fun _ => fitted_enterIdle h
    · rw [Seg.beginClosing, seeLow_eq]
      exact healthFits_of_check (b := true) (h.health g).pulses rfl
    · rw [Seg.beginClosing, seeLow_eq]; rfl

theorem dataHeldTimerExpiry_keeps_stores (h : s.StoresFit) (hn : execDataHeldTimerExpiry g s = .next t) : t.StoresFit :=
  storesFit_of_running h hn fun h => fitted_when h fun _ => by
    refine h.modSeg ?_ ?_
    · rw [enterRecover_eq]
      exact healthFits_of_recover (b := false) (Nat.zero_le 9) rfl fun _ => (by decide : 0 < 9)
    · rw [enterRecover_eq]; rfl

theorem fitted_giveUpClosing {scl : Bool} {f : Seg → Bool} (h : s.Fitted noHold) :
    (s.modSeg g fun v => v.giveUpClosing scl (f v)).Fitted noHold := by
  refine h.modSeg ?_ ?_
  · rw [giveUpClosing_eq]
    exact healthFits_of_check (b := false) (h.health g).pulses rfl
  · rw [giveUpClosing_eq]; rfl

theorem closingStopFails_keeps_stores {how : StopFailure} (h : s.StoresFit) (pool : s.PoolFits)
    (hn : execClosingStopFails g how s = .next t) : t.StoresFit :=
  storesFit_of_running h hn fun h => fitted_when h fun _ => by
    cases how with
    | dataNotHigh => exact fitted_giveUpClosing h
    | clockFell => exact fitted_giveUpClosing h
    | clockHeld => exact fitted_faultLow h pool

theorem releasePulse_keeps_stores {data : Bool} (h : s.StoresFit) (pool : s.PoolFits)
    (hn : execReleasePulse g data s = .next t) : t.StoresFit :=
  storesFit_of_running h hn fun h => fitted_when h fun pulsing => by
    have few : (s.seg g).pulseCount + 1 ≤ 9 := (h.health g).pulsing pulsing
    refine fitted_ite (fun _ => ?_) fun _ => fitted_pulseOrFault h pool rfl rfl few
    rw [counted_drivePulse]
    exact h.modSeg (healthFits_of_recover (b := true) few rfl nofun) rfl

theorem recoveryStopComplete_keeps_stores {how : StopEnd} (h : s.StoresFit) (pool : s.PoolFits)
    (hn : execRecoveryStopComplete g how s = .next t) : t.StoresFit :=
  storesFit_of_running h hn fun h => fitted_when h fun _ => by
    have failed (scl : Bool) : (s.pulseOrFault g scl).Fitted noHold := by
      have := fitted_pulseOrFault (scl := scl) h pool (u := s.seg g) rfl rfl (h.health g).pulses
      rwa [setSeg_seg] at this
    cases how with
    | complete =>
      refine h.modSeg ?_ ?_
      · rw [ownStop_eq]
        exact healthFits_of_check (b := false) (h.health g).pulses rfl
      · rw [ownStop_eq]; rfl
    | dataNotHigh => exact failed true
    | clockFell => exact failed false

/-- What a command of a segment's engine or monitor keeps. -/
theorem segment_keeps_stores {c : Instr} (h : s.StoresFit) (pool : s.PoolFits) (hg : segmentOf c = some g)
    (hn : exec c s = .next t) : t.StoresFit := by
  cases c with
  | choice g =>
    unfold exec execChoice at hn
    exact storesFit_of_running h hn fun h => fitted_when h fun idle => by
      split
      · exact fitted_choose h idle.1
      · exact h
  | openingStart g =>
    unfold exec execOpeningStart at hn
    exact storesFit_of_running h hn fun h => fitted_inRun h fun _ running =>
      fitted_when h fun _ => fitted_openAttempt h (isRun_of running)
  | attemptEndsOk g =>
    unfold exec execAttemptEndsOk at hn
    exact storesFit_of_running h hn fitted_stopped
  | attemptEndsAddressNack g =>
    unfold exec execAttemptEndsAddressNack at hn
    exact storesFit_of_running h hn fitted_stopped
  | attemptEndsDataNack g =>
    unfold exec execAttemptEndsDataNack at hn
    exact storesFit_of_running h hn fitted_stopped
  | attemptEndsAborted g =>
    unfold exec execAttemptEndsAborted at hn
    exact storesFit_of_running h hn fitted_stopped
  | attemptEndsArbitrationLost g =>
    unfold exec execAttemptEndsArbitrationLost at hn
    exact storesFit_of_running h hn fun h => fitted_inRun h fun _ running =>
      fitted_when h fun _ => fitted_endAttempt h (isRun_of running)
  | stretchTimeout g => exact stretchTimeout_keeps_stores h hn
  | acknowledgeBitRead g data ninth =>
    unfold exec execAcknowledgeBitRead at hn
    exact storesFit_of_running h hn fun h => fitted_inRun h fun _ running => fitted_when h fun _ => by
      refine h.modSeg ?_ ?_
      · rw [seeLow_eq]; exact (h.health g).of_run (isRun_of running) nofun rfl rfl rfl
      · rw [seeLow_eq]; rfl
  | arbitrationLost g how => exact arbitrationLost_keeps_stores h hn
  | monitorStartSeen g =>
    unfold exec execMonitorStartSeen at hn
    exact storesFit_of_running h hn fun h =>
      fitted_meetRestart (fitted_meetCondition (fitted_meetStart (h.sees (start_eq _) rfl rfl rfl rfl)))
  | monitorStopSeen g =>
    unfold exec execMonitorStopSeen at hn
    exact storesFit_of_running h hn fun h => fitted_ite (fun _ => h) fun met =>
      fitted_meetCondition (h.sees (stop_eq _ met) rfl rfl rfl rfl)
  | lineLow g l => exact lineLow_keeps_stores h hn
  | bothLinesHigh g =>
    unfold exec execBothLinesHigh at hn
    exact storesFit_of_running h hn fun h => h.sees (high_eq _) rfl rfl rfl rfl
  | busFreeTimerExpiry g =>
    unfold exec execBusFreeTimerExpiry at hn
    exact storesFit_of_running h hn fun h => fitted_when h fun _ => h.sees rfl rfl rfl rfl rfl
  | busyLongTimerExpiry g => exact busyLongTimerExpiry_keeps_stores h hn
  | quietTimerExpiry g => exact quietTimerExpiry_keeps_stores h hn
  | dataHeldTimerExpiry g => exact dataHeldTimerExpiry_keeps_stores h hn
  | clockHeldTimerExpiry g =>
    unfold exec execClockHeldTimerExpiry at hn
    exact storesFit_of_running h hn fun h => fitted_when h fun _ => fitted_enterFault_now h pool
  | closingStopComplete g =>
    unfold exec execClosingStopComplete at hn
    exact storesFit_of_running h hn fun h => fitted_when h fun _ => fitted_enterIdle (fitted_ownStop h)
  | closingStopFails g how => exact closingStopFails_keeps_stores h pool hn
  | releasePulse g data => exact releasePulse_keeps_stores h pool hn
  | recoveryClockHeld g =>
    unfold exec execRecoveryClockHeld at hn
    exact storesFit_of_running h hn fun h => fitted_when h fun _ => fitted_faultLow h pool
  | recoveryStopComplete g how => exact recoveryStopComplete_keeps_stores h pool hn
  | _ => cases hg

/-! ## Commands of the ports and of the requests -/

theorem breakWatchEndsAtMark_keeps_stores (h : s.StoresFit) (hn : execBreakWatchEndsAtMark p s = .next t) : t.StoresFit :=
  storesFit_of_running h hn fun h => by
    split
    · next watch => exact fitted_characterError h (by rw [watch]; nofun) true
    · next waits => exact h.setPort (fits_atMark (h.ports p) (.inl waits)) rfl
    all_goals exact h

theorem gapTimerExpiry_keeps_stores (h : s.StoresFit) (hn : execGapTimerExpiry p s = .next t) : t.StoresFit :=
  storesFit_of_running h hn fun h => fitted_when h fun _ => by
    refine h.setPort (fits_gapExpiry (h.ports p)) ?_
    obtain ⟨c, hc⟩ := countAbandoned_eq (s.port p)
    rw [Port.gapExpiry, hc]; rfl

theorem startBit_keeps_stores {stands : Bool} (h : s.StoresFit) (hn : execStartBit p stands s = .next t) : t.StoresFit :=
  storesFit_of_running h hn fun h => fitted_when h fun detects => by
    have detects : (s.port p).receiver = .waitMark ∨ (s.port p).receiver = .ready := by
      cases hr : (s.port p).receiver <;> simp [hr, Receiver.detects] at detects ⊢
    cases stands
    · exact h.setPort (fits_atMark (h.ports p) detects) rfl
    · exact h.setPort (fits_startStands (h.ports p) detects) rfl

theorem lifetimeExpiry_keeps_stores {i : SlotId} (h : s.StoresFit) (hn : execLifetimeExpiry i s = .next t) : t.StoresFit :=
  storesFit_of_running h hn fun h => fitted_when h fun _ =>
    fitted_ite (fun _ => fitted_withdraw (h.setSlot _)) fun _ => h.setSlot _

/-- Every command keeps the stores fitted. -/
theorem exec_keeps_stores {c : Instr} (h : s.StoresFit) (pool : s.PoolFits) (hn : exec c s = .next t) : t.StoresFit := by
  cases c with
  | deviceReset => cases hn; exact storesFit_inReset s
  | deviceResetEnd a b => exact deviceResetEnd_keeps_stores h hn
  | characterReceived p ch =>
    unfold exec execCharacterReceived at hn
    exact storesFit_of_running h hn fun h => fitted_when h fun hears => fitted_endCharacter h (open_free hears) ch
  | crcError p kind tag body crc =>
    unfold exec execCrcError at hn
    exact storesFit_of_running h hn fun h => fitted_ite (fun _ => h) fun _ => fitted_completeFrame h
  | badverBadkindMessage p kind tag body =>
    unfold exec execBadverBadkindMessage at hn
    exact storesFit_of_running h hn fun h => fitted_ite (fun _ => h) fun _ => fitted_completeMessage h
  | mgmtBadop p tag body =>
    unfold exec execMgmtBadop at hn
    exact storesFit_of_running h hn fun h => fitted_ite (fun _ => h) fun _ => fitted_completeMessage h
  | breakWatchEndsAtMark p => exact breakWatchEndsAtMark_keeps_stores h hn
  | gapTimerExpiry p => exact gapTimerExpiry_keeps_stores h hn
  | breakRecognized p =>
    unfold exec execBreak at hn
    exact storesFit_of_running h hn fun h => fitted_when h fun _ => fitted_portRestart h pool
  | breakEnd p =>
    unfold exec execBreakEnd at hn
    exact storesFit_of_running h hn fun h => fitted_when h fun hold => fitted_endBreak h hold
  | startBit p stands => exact startBit_keeps_stores h hn
  | transmitterHeld p =>
    unfold exec execTransmitterHeld at hn
    exact storesFit_of_running h hn fun h => fitted_when h fun finishing => fitted_finishCharacter h finishing
  | messageTransmitted p =>
    unfold exec execMessageTransmitted at hn
    refine storesFit_of_running h hn fun h => ?_
    split
    · next ht hq => exact fitted_complete h ht hq
    · exact h
  | retryTimerExpiry i =>
    unfold exec execRetryTimerExpiry at hn
    exact storesFit_of_running h hn fun h => fitted_when h fun _ => h.setSlot _
  | lifetimeExpiry i => exact lifetimeExpiry_keeps_stores h hn
  | txn p tag body => exact storesFit_of_message h hn
  | cancel p tag body => exact storesFit_of_message h hn
  | mapWrite p tag args => exact storesFit_of_message h hn
  | mapRead p tag args => exact storesFit_of_message h hn
  | mapRetire p tag args => exact storesFit_of_message h hn
  | portSet p tag args => exact storesFit_of_message h hn
  | portRead p tag args => exact storesFit_of_message h hn
  | segSet p tag args => exact storesFit_of_message h hn
  | segHold p tag args => exact storesFit_of_message h hn
  | segRelease p tag args => exact storesFit_of_message h hn
  | segRecover p tag args => exact storesFit_of_message h hn
  | segReset p tag args => exact storesFit_of_message h hn
  | statusRead p tag args => exact storesFit_of_message h hn
  | restart p tag args => exact storesFit_of_message h hn
  | _ => exact segment_keeps_stores h pool rfl hn

end

/-- The queue of waiting commands is no part of the stores. -/
theorem storesFit_pending {s : State} (h : s.StoresFit) (rest : List Instr) :
    ({ s with pending := rest } : State).StoresFit := fitted_iff.mpr ((fitted_iff.mp h).of_same (fun _ => rfl) fun _ => rfl)

/-- Settles O56: an empty queue idles, and every command keeps the stores fitted. -/
theorem storesStayFitted : Obligations.StoresStayFitted := by
  intro s t h hn
  unfold step at hn
  split at hn
  · cases hn; exact h.stores
  · next c rest _ => exact exec_keeps_stores (storesFit_pending h.stores rest) (h.pool.of_pool rfl) hn

end Sys2Proof.Machine
end

section
/-! SUPPORT. Characters as they are sent and judged (R117 to R119, R121). -/
namespace Sys2Proof.Machine

/-! ## The bits of a byte on the line -/

section
variable {f : LineFormat} {c : RxChar} {b : Byte} {k : Nat}

/-- The bit of a byte that stands in place `k` among the data bits on the line (R118). -/
def LineFormat.place (f : LineFormat) (k : Nat) : Nat := if f.msbFirst then 7 - k else k

theorem place_lt (h : k < 8) : f.place k < 8 := by unfold LineFormat.place; split <;> omega

theorem place_place (h : k < 8) : f.place (f.place k) = k := by unfold LineFormat.place; split <;> omega

/-- A byte is told by its bits in the order of the line. -/
theorem byte_eq_iff {x y : Byte} : x = y ↔ ∀ k < 8, x.getLsbD (f.place k) = y.getLsbD (f.place k) := by
  refine ⟨fun h _ _ => h ▸ rfl, fun h => BitVec.eq_of_getLsbD_eq fun i hi => ?_⟩
  have := h (f.place i) (place_lt hi)
  rwa [place_place hi] at this

theorem byte_eq_zero_iff {x : Byte} : x = 0 ↔ ∀ k < 8, x.getLsbD k = false :=
  ⟨fun h k _ => by simp [h], fun h => BitVec.eq_of_getLsbD_eq fun k hk => by simp [h k hk]⟩

/-- A byte taken in the order of the line, the most significant bit first where the format says so. -/
theorem getLsbD_ordered (h : k < 8) :
    (if f.msbFirst then b.reverse else b).getLsbD k = b.getLsbD (f.place k) := by
  unfold LineFormat.place
  split
  · rw [BitVec.getLsbD_reverse, BitVec.getMsbD_eq_getLsbD, decide_eq_true h, Bool.true_and]
  · rfl

theorem isMark_eq (level : Bool) : f.isMark level = (level != f.inverted) := by
  unfold LineFormat.isMark LineFormat.markLevel
  cases level <;> cases f.inverted <;> rfl

theorem isMark_levelOf (bit : Bool) : f.isMark (f.levelOf bit) = bit := by
  rw [isMark_eq, LineFormat.levelOf]
  cases bit <;> cases f.inverted <;> rfl

theorem getLsbD_sampledBits (h : k < 8) : (f.sampledBits c).getLsbD k = (c.data.getLsbD k != f.inverted) := by
  unfold LineFormat.sampledBits
  cases f.inverted <;> simp [h]

theorem getLsbD_byteOf (h : k < 8) : (f.byteOf c).getLsbD (f.place k) = (c.data.getLsbD k != f.inverted) := by
  rw [← getLsbD_sampledBits h]
  change (if f.msbFirst then _ else _ : Byte).getLsbD _ = _
  rw [getLsbD_ordered (place_lt h), place_place h]

/-- The sampled data bits of a sent byte are its bits in the order of the line (R118). -/
theorem sampledBits_character : f.sampledBits (f.character b) = if f.msbFirst then b.reverse else b := by
  change (if f.inverted then ~~~(if f.inverted then _ else _) else (if f.inverted then _ else _) : Byte) = _
  cases f.inverted <;> simp

/-! ## The number of 1 bits -/

theorem onesIn_eq_count : onesIn b = ((List.range 8).map b.getLsbD).count true := by
  rw [List.count, List.countP_map, List.countP_eq_length_filter]
  exact congrArg List.length (List.filter_congr fun _ _ => (beq_true _).symm)

/-- The 1 bits of a byte are counted on the line as well, in either bit order. -/
theorem onesIn_eq_count_placed : onesIn b = ((List.range 8).map fun k => b.getLsbD (f.place k)).count true := by
  unfold LineFormat.place
  cases f.msbFirst with
  | false => exact onesIn_eq_count
  | true =>
    have turned : (List.range 8).map (fun k => b.getLsbD (7 - k)) = ((List.range 8).map b.getLsbD).reverse := rfl
    rw [onesIn_eq_count, ← List.count_reverse, ← turned]
    rfl

/-- The 1 bits sampled are those of the data bits and a parity bit at mark. -/
theorem onesSampled_eq : f.onesSampled c = onesIn (f.sampledBits c) + (f.isMark c.parity).toNat := by
  rw [isMark_eq]
  exact congrArg (· + _) (congrArg List.length
    (List.filter_congr fun _ hk => (getLsbD_sampledBits (List.mem_range.mp hk)).symm))

theorem onesIn_sampledBits_character : onesIn (f.sampledBits (f.character b)) = onesIn b := by
  rw [sampledBits_character, onesIn_eq_count, onesIn_eq_count_placed (f := f)]
  exact congrArg _ (List.map_congr_left fun _ hk => getLsbD_ordered (List.mem_range.mp hk))

/-! ## The judgement (R121) -/

theorem parityAgrees_iff : f.parityAgrees c = true ↔
    (f.parity = .even → f.onesSampled c % 2 = 0) ∧ (f.parity = .odd → f.onesSampled c % 2 = 1) := by
  rw [onesSampled_eq]
  unfold LineFormat.parityAgrees LineFormat.parityBit
  cases f.parity <;> cases f.isMark c.parity <;> simp <;> omega

theorem stopsAtMark_iff : f.stopsAtMark c = true ↔
    (c.stop1 != f.inverted) = true ∧ (f.stopBits = 2 → (c.stop2 != f.inverted) = true) := by
  rw [LineFormat.stopsAtMark, isMark_eq, isMark_eq, Bool.and_eq_true, Bool.or_eq_true, decide_eq_true_eq, ← imp_iff_not_or]

theorem isCandidate_iff : f.isCandidate c = true ↔
    (∀ k < 8, (c.data.getLsbD k != f.inverted) = false) ∧ (f.parity ≠ .none → (c.parity != f.inverted) = false) ∧
      (c.stop1 != f.inverted) = false := by
  have data : f.sampledBits c = 0 ↔ ∀ k < 8, (c.data.getLsbD k != f.inverted) = false :=
    byte_eq_zero_iff.trans (forall₂_congr fun _ hk => by rw [getLsbD_sampledBits hk])
  simp only [LineFormat.isCandidate, isMark_eq, Bool.and_eq_true, Bool.or_eq_true, decide_eq_true_eq, Bool.not_eq_true',
    data, and_assoc, ne_eq, ← or_iff_not_imp_left]

theorem judge_candidate_iff : f.judge c = .candidate ↔ f.isCandidate c = true := by
  unfold LineFormat.judge
  split
  · next h => exact iff_of_true rfl h
  · next h => split <;> exact iff_of_false nofun h

/-- A good character is no candidate, since its first stop bit is at mark. -/
theorem judge_good_iff : f.judge c = .good b ↔ f.stopsAtMark c = true ∧ f.byteOf c = b ∧ f.parityAgrees c = true := by
  unfold LineFormat.judge
  split
  · next space =>
    obtain ⟨_, _, stop⟩ := isCandidate_iff.mp space
    exact iff_of_false nofun fun ⟨mark, _⟩ => by rw [(stopsAtMark_iff.mp mark).1] at stop; cases stop
  · split
    · next h =>
      obtain ⟨stops, agrees⟩ := Bool.and_eq_true_iff.mp h
      simp [stops, agrees]
    · next h => exact iff_of_false nofun fun ⟨stops, _, agrees⟩ => h (by rw [stops, agrees]; rfl)

theorem byteOf_eq_iff : f.byteOf c = b ↔ ∀ k < 8, b.getLsbD (f.place k) = (c.data.getLsbD k != f.inverted) :=
  (byte_eq_iff (f := f)).trans (forall₂_congr fun _ hk => by rw [getLsbD_byteOf hk, eq_comm])

/-! ## A byte sent as a character (R118) -/

theorem getLsbD_character (h : k < 8) : ((f.character b).data.getLsbD k != f.inverted) = b.getLsbD (f.place k) := by
  rw [← getLsbD_sampledBits h, sampledBits_character, getLsbD_ordered h]

/-- The parity bit of a sent byte is the one its format asks for. -/
theorem isMark_character_parity (h : f.parity ≠ .none) : f.isMark (f.character b).parity = f.parityBit b := by
  unfold LineFormat.character LineFormat.parityBit
  rw [isMark_levelOf]
  cases hp : f.parity with
  | none => exact absurd hp h
  | even => rfl
  | odd => rfl

/-- A byte sent as a character of a format is received as that byte (R118, R121). -/
theorem judge_character : f.judge (f.character b) = .good b := by
  refine judge_good_iff.mpr ⟨?_, byteOf_eq_iff.mpr fun _ hk => (getLsbD_character hk).symm, ?_⟩
  · unfold LineFormat.stopsAtMark LineFormat.character
    simp only [isMark_levelOf, Bool.or_true, Bool.and_true]
  · by_cases h : f.parity = .none
    · simp [LineFormat.parityAgrees, h]
    · have bit : f.parityBit (f.sampledBits (f.character b)) = f.parityBit b := by
        unfold LineFormat.parityBit
        rw [onesIn_sampledBits_character]
      rw [LineFormat.parityAgrees, isMark_character_parity h, bit, beq_self_eq_true, Bool.or_true]

/-! ## The bits of a sent character (R117, R118) -/

theorem dataBits_length : (f.dataBits b).length = 8 := by simp [LineFormat.dataBits]

theorem dataBits_eq : f.dataBits b = (List.range 8).map fun k => b.getLsbD (f.place k) := by
  unfold LineFormat.dataBits LineFormat.place
  refine List.map_congr_left fun k hk => ?_
  split
  · rw [BitVec.getMsbD_eq_getLsbD, decide_eq_true (List.mem_range.mp hk), Bool.true_and]
  · rfl

theorem sentBits_data (h : k < 8) : (f.sentBits b)[k + 1]? = some (b.getLsbD (f.place k)) := by
  have h' : k < (f.dataBits b).length := by rw [dataBits_length]; exact h
  rw [LineFormat.sentBits, List.cons_append, List.cons_append, List.getElem?_cons_succ, List.append_assoc,
    List.getElem?_append_left h', dataBits_eq, List.getElem?_map, List.getElem?_range h]
  rfl

/-- A character with a parity bit: the start bit, the data bits, the parity bit, and from then on stop bits. -/
theorem sentBits_of_parity (h : f.parity ≠ .none) :
    f.sentBits b = (false :: (f.dataBits b ++ [f.parityBit b])) ++ List.replicate f.stopBits true := by
  rw [LineFormat.sentBits, if_neg h, List.cons_append]

theorem sentBits_parity (h : f.parity ≠ .none) : (f.sentBits b)[9]? = some (f.parityBit b) := by
  rw [sentBits_of_parity h, List.getElem?_append_left (by simp [dataBits_length]), List.getElem?_cons_succ,
    List.getElem?_append_right (by rw [dataBits_length]), dataBits_length]
  rfl

/-- The parity bit makes the number of 1 bits among the data bits and itself even or odd. -/
theorem count_sentBits (h : f.parity ≠ .none) :
    (((f.sentBits b).drop 1).take 9).count true % 2 = if f.parity = .even then 0 else 1 := by
  have covered : ((f.sentBits b).drop 1).take 9 = f.dataBits b ++ [f.parityBit b] := by
    rw [sentBits_of_parity h, List.cons_append, List.drop_succ_cons, List.drop_zero]
    exact List.take_left' (by simp [dataBits_length])
  rw [covered, List.count_append, dataBits_eq, ← onesIn_eq_count_placed]
  unfold LineFormat.parityBit
  rcases Nat.mod_two_eq_zero_or_one (onesIn b) with ones | ones <;> cases hp : f.parity <;>
    simp_all [Nat.add_mod]

theorem sentBits_stop (h : (if f.parity = .none then 9 else 10) ≤ k) (hk : k < (f.sentBits b).length) :
    (f.sentBits b)[k]? = some true := by
  have bits : ∃ bits : List Bool, f.sentBits b = bits ++ List.replicate f.stopBits true ∧ bits.length ≤ k := by
    by_cases hp : f.parity = .none
    · rw [if_pos hp] at h
      exact ⟨false :: f.dataBits b, by rw [LineFormat.sentBits, if_pos hp, List.append_nil],
        by rw [List.length_cons, dataBits_length]; exact h⟩
    · rw [if_neg hp] at h
      exact ⟨_, sentBits_of_parity hp, by simp [dataBits_length]; exact h⟩
  obtain ⟨bits, sent, before⟩ := bits
  rw [sent, List.length_append, List.length_replicate] at hk
  rw [sent, List.getElem?_append_right before, List.getElem?_replicate, if_pos (by omega)]

end

/-! ## The line HTXn (R119, R124, R133) -/

section
variable {s : State} {p : PortId} {k : Nat}

theorem htx_of_reset (h : s.resetn = false) : s.htx p k = true := by rw [State.htx, h]; rfl

/-- A transmitter that sends nothing holds its line at mark. -/
theorem htx_of_quiet (hr : s.resetn = true) (h : (s.port p).tx = .idle ∨ (s.port p).tx = .held) :
    s.htx p k = !(s.port p).txFormat.inverted := by
  rw [State.htx, if_pos hr, Port.htx]
  rcases h with h | h <;> rw [h] <;> rfl

/-- A frame being sent is on the line character by character, each from the bit time in which the one before it ends. -/
theorem htx_of_frame {before after : List Byte} {b : Byte} {bit : Bool} (hr : s.resetn = true)
    (h : (s.port p).tx = .sending ∨ (s.port p).tx = .finishing)
    (hs : (s.port p).txFormat.stopBits = 1 ∨ (s.port p).txFormat.stopBits = 2)
    (hf : (s.port p).txFrame = before ++ b :: after) (hk : k < (s.port p).txFormat.characterBits)
    (hb : ((s.port p).txFormat.sentBits b)[k]? = some bit) :
    s.htx p (before.length * (s.port p).txFormat.characterBits + k) = (bit != (s.port p).txFormat.inverted) := by
  have level := sentLevels_get (s.port p).txFormat before after b hs k hk
  rw [hb] at level
  rw [State.htx, if_pos hr, Port.htx]
  rcases h with h | h <;> rw [h, hf] <;> exact (List.getD_eq_getElem?_getD ..).trans (by rw [level]; rfl)

end

/-- Settles O7: the bits of a sent character place by place, the level of each on the line, and the table of R121 in the
order in which a good character's bits were sent. -/
theorem characterJudgementFollowsTheTable : Obligations.CharacterJudgementFollowsTheTable := by
  refine ⟨fun f b hs => ⟨?_, rfl, fun k hk => ⟨sentBits_data hk, ?_⟩, fun hp => ⟨count_sentBits hp, ?_⟩,
    fun k => sentBits_stop, ?_, ?_⟩, fun s p => ⟨fun hr k => htx_of_reset hr, fun hr => ⟨fun quiet k => htx_of_quiet hr quiet,
      fun sends hs before b after hf k hk bit hb => htx_of_frame hr sends hs hf hk hb⟩⟩,
    fun f c => ⟨judge_candidate_iff.trans isCandidate_iff, fun b => ⟨?_, judge_character⟩⟩⟩
  · rw [sentBits_length f b hs]; rfl
  · rw [getLsbD_character hk]; exact sentBits_data hk
  · rw [← isMark_eq, isMark_character_parity hp]; exact sentBits_parity hp
  · rw [← isMark_eq]; exact isMark_levelOf true
  · rw [← isMark_eq]; exact isMark_levelOf true
  · rw [judge_good_iff, stopsAtMark_iff, byteOf_eq_iff, parityAgrees_iff, and_assoc]
    rfl

end Sys2Proof.Machine
end

section
/-! SUPPORT. Start bits, the ends of characters, and the end of a break watch (R120 to R123, R140). -/
namespace Sys2Proof.Machine

section
variable {s : State} {p : PortId} {c : RxChar} {b : Byte}

theorem detects_iff {r : Receiver} : r.detects = true ↔ r = .waitMark ∨ r = .ready := by
  cases r <;> simp [Receiver.detects]

theorem exec_startBit (hr : s.resetn = true) (h : (s.port p).receiver = .waitMark ∨ (s.port p).receiver = .ready)
    (stands : Bool) : exec (.startBit p stands) s =
      .next (s.setPort p (if stands then (s.port p).startStands else (s.port p).atMark)) := by
  change execStartBit p stands s = _
  rw [execStartBit, running_of hr, if_pos (detects_iff.mpr h), State.modPort]
  cases stands <;> rfl

theorem exec_characterReceived (hr : s.resetn = true)
    (h : (s.port p).receiver ≠ .breakWatch ∧ (s.port p).receiver ≠ .breakHold) :
    exec (.characterReceived p c) s = .next (s.endCharacter p c) := by
  change execCharacterReceived p c s = _
  rw [execCharacterReceived, running_of hr, if_pos ((receiver_open_iff _).mpr h)]

/-! ## The end of a character, by its judgement (R121) -/

theorem endCharacter_of_good (h : (s.port p).format.judge c = .good b) :
    s.endCharacter p c = (s.setPort p (s.port p).quietened).assembleByte p b := by
  simp only [State.endCharacter, h]
  rfl

theorem endCharacter_of_error (h : (s.port p).format.judge c = .error) :
    s.endCharacter p c = s.setPort p ((s.port p).errored ((s.port p).format.endsAtMark c)) := by
  simp only [State.endCharacter, h, State.modPort, characterError_eq]

theorem endCharacter_of_candidate (h : (s.port p).format.judge c = .candidate) :
    s.endCharacter p c = s.setPort p
      (if (s.port p).format.endsAtMark c then (s.port p).errored true else (s.port p).watchBreak) := by
  simp only [State.endCharacter, h, State.modPort, characterError_eq]
  split <;> rfl

theorem endsAtMark_eq (f : LineFormat) (c : RxChar) :
    f.endsAtMark c = ((if f.stopBits = 2 then c.stop2 else c.stop1) != f.inverted) := isMark_eq _

/-- The space timer of a break candidate (R123; log entry 5). -/
theorem spaceTimer_watchBreak (v : Port) : v.watchBreak.spaceTimer =
    if v.receiver = .inCharacter then some (v.spaceTimer.getD v.format.breakLength) else some v.format.breakLength := by
  unfold Port.watchBreak
  by_cases h : v.receiver = .inCharacter <;> cases ht : v.spaceTimer <;> simp [h]

end

/-- Settles O6: a receiver that detects start bits takes this one, or sees its line at mark. -/
theorem startBitStandsOrIsDiscarded : Obligations.StartBitStandsOrIsDiscarded := by
  intro p s hr h
  refine ⟨(exec_startBit hr h true).trans ?_, exec_startBit hr h false⟩
  have space : (!(s.port p).format.markLevel) = (s.port p).format.inverted := Bool.not_not _
  rw [if_pos rfl, Port.startStands, space]
  rfl

/-- Settles O10: the judgement and the last stop bit decide what the end of a character leaves, and the receiver what mark
ends. -/
theorem characterErrorsAndBreakWatch : Obligations.CharacterErrorsAndBreakWatch := by
  intro p s hr
  refine ⟨fun c watch hold => ?_, fun watch => ?_, fun wait => ?_⟩
  · rw [exec_characterReceived hr ⟨watch, hold⟩]
    refine ⟨fun error => ?_, fun candidate mark => ?_, fun candidate space => ?_⟩
    · rw [endCharacter_of_error error, endsAtMark_eq]
    · rw [endCharacter_of_candidate candidate, endsAtMark_eq, mark]
      rfl
    · have level : (!(s.port p).format.markLevel) = (s.port p).format.inverted := Bool.not_not _
      have watched : (s.port p).watchBreak = { s.port p with
          hrx := (s.port p).format.inverted
          receiver := .breakWatch
          gapTimer := none
          spaceTimer := (s.port p).watchBreak.spaceTimer } := by
        rw [← level]; rfl
      rw [endCharacter_of_candidate candidate, endsAtMark_eq, space, if_neg Bool.false_ne_true, watched,
        spaceTimer_watchBreak]
      rfl
  · change execBreakWatchEndsAtMark p s = _
    rw [execBreakWatchEndsAtMark, running_of hr, watch, ← characterError_eq]
    rfl
  · change execBreakWatchEndsAtMark p s = _
    rw [execBreakWatchEndsAtMark, running_of hr, wait]
    rfl

end Sys2Proof.Machine
end

section
/-! SUPPORT. A frame sent byte by byte (R118, R120, R121, R134 to R139). -/
namespace Sys2Proof.Machine

section
variable {s : State} {p : PortId} {kind tag b : Byte} {body buffer rest : List Byte} {crc : BitVec 16}

/-! ## The bytes of a frame (R134) -/

theorem frameWithCrc_length : (frameWithCrc kind tag body crc).length = body.length + 6 := by
  simp [frameWithCrc, covered, bytes16]

theorem frameWithCrc_three : (frameWithCrc kind tag body crc)[3]? = some (byte body.length) := rfl

/-- A first part of a frame that reaches its length byte reads the length of the body there. -/
theorem lengthByte_of_part {n : Byte} (h : buffer ++ rest = frameWithCrc kind tag body crc) (fits : body.length ≤ 200)
    (hn : buffer[3]? = some n) : n.toNat = body.length := by
  obtain ⟨inside, _⟩ := List.getElem?_eq_some_iff.mp hn
  have same : some n = some (byte body.length) := by
    rw [← hn, ← frameWithCrc_three (kind := kind) (tag := tag) (crc := crc), ← h, List.getElem?_append_left inside]
  rw [Option.some.inj same, toNat_byte_of_le (by omega)]

/-- A first part of a frame is done exactly when it is all of it (R138). -/
theorem frameDone_part (h : buffer ++ rest = frameWithCrc kind tag body crc) (fits : body.length ≤ 200) :
    frameDone buffer = true ↔ rest = [] := by
  have total := congrArg List.length h
  rw [List.length_append, frameWithCrc_length] at total
  rw [frameDone_iff]
  constructor
  · rintro ⟨n, hn, length⟩
    rw [lengthByte_of_part h fits hn] at length
    exact List.length_eq_zero_iff.mp (by omega)
  · rintro rfl
    rw [List.append_nil] at h
    refine ⟨byte body.length, h ▸ frameWithCrc_three, ?_⟩
    rw [toNat_byte_of_le (by omega), h, frameWithCrc_length]

/-- A whole frame is taken apart into what it was made of (R134, R139). -/
theorem judgeBuffer_frame (fits : body.length ≤ 200) :
    s.judgeBuffer p (frameWithCrc kind tag body crc) = s.judgeFrame p kind tag body crc := by
  have length : (byte body.length).toNat = body.length := toNat_byte_of_le (by omega)
  have register : BitVec.ofNat 16 (word16 (byte (crc.toNat / 256)) (byte crc.toNat)) = crc := by
    rw [word16_bytes (by have := crc.isLt; omega), BitVec.ofNat_toNat, BitVec.setWidth_eq]
  have frame : frameWithCrc kind tag body crc =
      leadByte :: kind :: tag :: byte body.length :: (body ++ [byte (crc.toNat / 256), byte crc.toNat]) := rfl
  rw [frame, State.judgeBuffer, length, List.drop_left, List.take_left]
  dsimp only
  rw [register]

/-! ## The command of a frame (R139, R144, R147) -/

theorem exec_ite {c : Prop} [Decidable c] {i j : Instr} {o : Host.Outcome State Fault Refusal} (pos : c → exec i s = o)
    (neg : ¬c → exec j s = o) : exec (if c then i else j) s = o := by
  split
  · next h => exact pos h
  · next h => exact neg h

theorem exec_mgmtBadop (hr : s.resetn = true) (unnamed : mgmtNamed body = false) :
    exec (.mgmtBadop p tag body) s = .next (s.completeMessage p kindMgmt tag body) := by
  change execMgmtBadop p tag body s = _
  rw [execMgmtBadop, running_of hr, unnamed]
  rfl

/-- The command that the body of a MGMT spells is the completion of its frame (R147, R154). -/
theorem exec_mgmtCommand (hr : s.resetn = true) (matching : crcOf (covered kindMgmt tag body) = crc) :
    exec (messageCommand p kindMgmt tag body crc) s = .next (s.completeMessage p kindMgmt tag body) := by
  unfold messageCommand
  rw [if_neg (not_not.mpr matching), if_neg (by decide), if_neg (by decide), if_pos rfl]
  cases body with
  | nil => exact exec_mgmtBadop hr rfl
  | cons op args =>
    refine exec_ite (by rintro rfl; exact running_of hr) fun mapWrite => ?_
    refine exec_ite (by rintro rfl; exact running_of hr) fun mapRead => ?_
    refine exec_ite (by rintro rfl; exact running_of hr) fun mapRetire => ?_
    refine exec_ite (by rintro rfl; exact running_of hr) fun portSet => ?_
    refine exec_ite (by rintro rfl; exact running_of hr) fun portRead => ?_
    refine exec_ite (by rintro rfl; exact running_of hr) fun segSet => ?_
    refine exec_ite (by rintro rfl; exact running_of hr) fun segHold => ?_
    refine exec_ite (by rintro rfl; exact running_of hr) fun segRelease => ?_
    refine exec_ite (by rintro rfl; exact running_of hr) fun segRecover => ?_
    refine exec_ite (by rintro rfl; exact running_of hr) fun segReset => ?_
    refine exec_ite (by rintro rfl; exact running_of hr) fun statusRead => ?_
    refine exec_ite (by rintro rfl; exact running_of hr) fun restart => ?_
    have unnamed : mgmtNamed (op :: args) = false := by
      simp [mgmtNamed, mgmtOps, mapWrite, mapRead, mapRetire, portSet, portRead, segSet, segHold, segRelease, segRecover,
        segReset, statusRead, restart]
    exact exec_mgmtBadop hr unnamed

/-- The kinds that a host may send in version 1 are those of TXN, CANCEL and MGMT (R134, R144). -/
theorem kindAccepted_iff : ∀ kind : Byte, kindAccepted kind = true ↔
    kind = kindTxn ∨ kind = kindCancel ∨ kind = kindMgmt := by
  decide

/-- The command of a frame is its completion (R139). -/
theorem exec_messageCommand (hr : s.resetn = true) :
    exec (messageCommand p kind tag body crc) s = .next (s.completeFrame p kind tag body crc) := by
  by_cases matching : crcOf (covered kind tag body) = crc
  · have whole : s.completeFrame p kind tag body crc = s.completeMessage p kind tag body := by
      rw [State.completeMessage, matching]
    rw [whole]
    by_cases mgmt : kind = kindMgmt
    · subst mgmt; exact exec_mgmtCommand hr matching
    · unfold messageCommand
      rw [if_neg (not_not.mpr matching), if_neg mgmt]
      refine exec_ite (by rintro rfl; exact running_of hr) fun txn => ?_
      refine exec_ite (by rintro rfl; exact running_of hr) fun cancel => ?_
      have refused : kindAccepted kind = false :=
        Bool.eq_false_iff.mpr fun h => ((kindAccepted_iff kind).mp h).elim txn fun h => h.elim cancel mgmt
      change execBadverBadkindMessage p kind tag body s = _
      rw [execBadverBadkindMessage, running_of hr, refused]
      rfl
  · unfold messageCommand
    rw [if_pos matching]
    change execCrcError p kind tag body crc s = _
    rw [execCrcError, running_of hr, if_neg matching]

/-! ## A frame byte by byte (R118, R120, R121, R136 to R139) -/

/-- A port that can take a start bit, and whose assembly holds all of a frame but `rest` (R120, R136). -/
structure Port.Lacks (v : Port) (frame rest : List Byte) : Prop where
  detects : v.receiver = .waitMark ∨ v.receiver = .ready
  assembles : v.assembly.state ≠ .hunting
  idle : v.assembly.state = .idle → v.assembly.buffer = []
  parts : v.assembly.buffer ++ rest = frame

theorem Port.Lacks.hears {v : Port} {frame : List Byte} (h : v.Lacks frame rest) (more : rest ≠ []) : v.Hears frame :=
  ⟨by rcases h.detects with e | e <;> rw [e] <;> nofun, by rcases h.detects with e | e <;> rw [e] <;> nofun, h.assembles,
    rest, more, h.parts⟩

/-- What assembly holds does not count once a frame is judged (R139). -/
theorem judgeFrame_setPort (v : Port) (a : Assembly) :
    (s.setPort p { v with assembly := a }).judgeFrame p kind tag body crc =
      (s.setPort p v).judgeFrame p kind tag body crc := by
  simp only [State.judgeFrame, State.modPort, port_setPort, setPort_setPort]

/-- A frame whose rest arrives is judged (R139; log entry 3). -/
theorem completeFrame_eq (h : (s.port p).Hears (frameWithCrc kind tag body crc)) (fits : body.length ≤ 200) :
    s.completeFrame p kind tag body crc = (s.setPort p (s.port p).quietened).judgeFrame p kind tag body crc := by
  rw [State.completeFrame, if_pos ⟨fits, (canComplete_iff _ _).mpr h⟩]
  rfl

/-- A port that has taken one more byte of a frame, which is not the last (R120 to R122, R138). -/
def Port.gathered (v : Port) (b : Byte) : Port :=
  { v.quietened with assembly := ⟨.receiving, v.assembly.buffer ++ [b]⟩ }

/-- A byte sent to a port that can take its start bit reaches assembly, with the line quiet (R120 to R122). -/
theorem execAll_byte (hr : s.resetn = true) (h : (s.port p).receiver = .waitMark ∨ (s.port p).receiver = .ready)
    (more : List Instr) : execAll (byteCommands p (s.port p).format b ++ more) s =
      execAll more ((s.setPort p (s.port p).quietened).assembleByte p b) := by
  have started : exec (.startBit p true) s = .next (s.setPort p (s.port p).startStands) := exec_startBit hr h true
  have ended : exec (.characterReceived p ((s.port p).format.character b)) (s.setPort p (s.port p).startStands) =
      .next ((s.setPort p (s.port p).quietened).assembleByte p b) := by
    rw [exec_characterReceived (s := s.setPort p _) hr (by rw [port_setPort]; exact ⟨nofun, nofun⟩),
      endCharacter_of_good (b := b) (by rw [port_setPort]; exact judge_character), port_setPort, setPort_setPort]
    rfl
  simp only [byteCommands, List.cons_append, List.nil_append, execAll, started, ended]

/-- The fourth byte of a frame of at most 200 body bytes does not abandon it (R138). -/
theorem receiveByte_of_part (parts : (s.port p).assembly.buffer ++ b :: rest = frameWithCrc kind tag body crc)
    (fits : body.length ≤ 200) : s.receiveByte p b =
      if rest = [] then s.judgeFrame p kind tag body crc
      else s.setPort p { s.port p with assembly := ⟨.receiving, (s.port p).assembly.buffer ++ [b]⟩ } := by
  have grown : ((s.port p).assembly.buffer ++ [b]) ++ rest = frameWithCrc kind tag body crc := by
    rw [List.append_assoc]; exact parts
  have short : ¬(((s.port p).assembly.buffer ++ [b]).length = 4 ∧ Config.maxBody < b.toNat) := by
    rintro ⟨four, long⟩
    have last : (s.port p).assembly.buffer.length = 3 := by simpa using four
    have length := lengthByte_of_part grown fits (by rw [← last]; exact List.getElem?_concat_length)
    rw [length] at long
    exact absurd long (Nat.not_lt.mpr fits)
  unfold State.receiveByte
  dsimp only
  rw [if_neg short]
  by_cases last : rest = []
  · rw [if_pos ((frameDone_part grown fits).mpr last), if_pos last]
    subst last
    rw [parts, judgeBuffer_frame fits]
  · rw [if_neg fun done => last ((frameDone_part grown fits).mp done), if_neg last]
    rfl

/-- The next byte of a frame joins what assembly holds, and the last one has the frame judged (R137 to R139). -/
theorem assembleByte_of_lacks (h : (s.port p).Lacks (frameWithCrc kind tag body crc) (b :: rest)) (fits : body.length ≤ 200) :
    s.assembleByte p b =
      if rest = [] then s.judgeFrame p kind tag body crc
      else s.setPort p { s.port p with assembly := ⟨.receiving, (s.port p).assembly.buffer ++ [b]⟩ } := by
  unfold State.assembleByte
  split
  · next idle =>
    have empty := h.idle idle
    have parts : b :: rest = frameWithCrc kind tag body crc := by rw [← h.parts, empty, List.nil_append]
    obtain ⟨lead, remaining⟩ := List.cons.inj parts
    rw [if_pos lead, if_neg (by rw [remaining]; simp [covered]), empty]
    rfl
  · exact receiveByte_of_part h.parts fits
  · next hunting => exact absurd hunting h.assembles

/-- The rest of a frame, sent byte by byte, has the frame judged on a quiet line. -/
theorem execAll_rest (fits : body.length ≤ 200) : ∀ (rest : List Byte) (s : State), s.resetn = true → rest ≠ [] →
    (s.port p).Lacks (frameWithCrc kind tag body crc) rest →
    execAll (rest.flatMap (byteCommands p (s.port p).format)) s =
      .next ((s.setPort p (s.port p).quietened).judgeFrame p kind tag body crc)
  | [], _, _, more, _ => absurd rfl more
  | b :: rest, s, hr, _, h => by
    have quiet : ((s.setPort p (s.port p).quietened).port p).Lacks (frameWithCrc kind tag body crc) (b :: rest) := by
      rw [port_setPort]; exact ⟨.inr rfl, h.assembles, h.idle, h.parts⟩
    rw [List.flatMap_cons, execAll_byte hr h.detects, assembleByte_of_lacks quiet fits, port_setPort, setPort_setPort]
    split
    · next last => rw [last]; rfl
    · next more =>
      have lacks : ((s.setPort p ((s.port p).gathered b)).port p).Lacks (frameWithCrc kind tag body crc) rest := by
        rw [port_setPort]; exact ⟨.inr rfl, nofun, nofun, (List.append_assoc ..).trans h.parts⟩
      have sent := execAll_rest fits rest (s.setPort p ((s.port p).gathered b)) hr more lacks
      rw [port_setPort, setPort_setPort] at sent
      rw [← judgeFrame_setPort (s.port p).quietened ⟨.receiving, (s.port p).assembly.buffer ++ [b]⟩]
      exact sent

end

/-- Settles O15: byte by byte the frame is assembled and judged, as its command completes it. -/
theorem frameSentByteByByteIsItsCommand : Obligations.FrameSentByteByByteIsItsCommand := by
  intro p kind tag body crc rest s hr fits detects line assembles more parts
  have lacks : (s.port p).Lacks (frameWithCrc kind tag body crc) rest :=
    ⟨detects, assembles, fun idle => line.buffer (by rw [idle]; nofun), parts⟩
  rw [execAll_rest fits rest s hr more lacks, exec_messageCommand hr, completeFrame_eq (lacks.hears more) fits]

end Sys2Proof.Machine
end

section
/-! SUPPORT. The end of a break (R127, R153, R156, R165, R169). -/
namespace Sys2Proof.Machine

section
variable {s : State} {p : PortId} {v : Port}

theorem exec_breakEnd (hr : s.resetn = true) (hold : (s.port p).receiver = .breakHold) :
    exec (.breakEnd p) s = .next (s.endBreak p) := by
  change execBreakEnd p s = _
  rw [execBreakEnd, running_of hr, if_pos hold]

/-- A notice leaves a transmitter that is not IDLE as it is (R160, R165). -/
theorem tx_noticed {kind : NoticeKind} {arg : Byte} (busy : v.tx ≠ .idle) : (v.noticed kind arg).tx = v.tx :=
  (keepsLine_noticed v kind arg).tx.resolve_right fun ⟨idle, _⟩ => busy idle

/-- A port whose line is back at mark, before its notice (R127). -/
def Port.markSeen (v : Port) : Port := { v.atMark with assembly := Assembly.idle }

/-- A HELD transmitter is IDLE after the notice, and takes up the head of the queue (R127). -/
theorem serve_unbroken_of_held (frame : SlotId → List Byte) (held : v.tx = .held) :
    v.unbroken.serve frame = ({ v.markSeen.noticed .portRestarted 0 with tx := .idle } : Port).takesUp frame := by
  have tx : (v.markSeen.noticed .portRestarted 0).tx = .held := (tx_noticed (v := v.markSeen) (held ▸ nofun)).trans held
  have released : v.unbroken = { v.markSeen.noticed .portRestarted 0 with tx := .idle } := if_pos tx
  rw [released, Port.serve, if_pos rfl]

/-- A transmitter that finishes a character goes on after the notice (log entry 17). -/
theorem serve_unbroken_of_finishing (frame : SlotId → List Byte) (finishing : v.tx = .finishing) :
    v.unbroken.serve frame = v.markSeen.noticed .portRestarted 0 := by
  have tx : (v.markSeen.noticed .portRestarted 0).tx = .finishing :=
    (tx_noticed (v := v.markSeen) (finishing ▸ nofun)).trans finishing
  have kept : v.unbroken = v.markSeen.noticed .portRestarted 0 := if_neg (by rw [← Port.markSeen, tx]; nofun)
  rw [kept, Port.serve, if_neg (by rw [tx]; nofun)]

end

/-- Settles O13: the line is back at mark, the notice joins the queue, and only then a HELD transmitter is served. -/
theorem breakEndAnnouncesTheRestart : Obligations.BreakEndAnnouncesTheRestart := by
  refine ⟨rfl, fun _ => rfl, fun p s hr hold => ⟨fun held => ?_, fun finishing => ?_⟩⟩
  · have served : (s.port p).Served := fun idle => by rw [held] at idle; cases idle
    rw [exec_breakEnd hr hold, endBreak_eq served, serve_unbroken_of_held _ held]
    rfl
  · have served : (s.port p).Served := fun idle => by rw [finishing] at idle; cases idle
    rw [exec_breakEnd hr hold, endBreak_eq served, serve_unbroken_of_finishing _ finishing]
    rfl

end Sys2Proof.Machine
end

section
/-! SUPPORT. Operations that change one port alone (R127, R129, R130, R159, R165), and how those of two ports change places. -/
namespace Sys2Proof.Machine

/-- An operation that changes one port alone, by that port and the request records. -/
def ActsAt (p : PortId) (F : State → State) : Prop :=
  ∃ f : (SlotId → Slot) → Port → Port, ∀ s, F s = s.setPort p (f s.slot (s.port p))

section
variable {p q : PortId} {F G : State → State} {s : State}

theorem actsAt_id : ActsAt p id := ⟨fun _ v => v, fun _ => (setPort_port ..).symm⟩

theorem actsAt_modPort (f : Port → Port) : ActsAt p fun s => s.modPort p f := ⟨fun _ => f, fun _ => rfl⟩

theorem actsAt_setPort (v : Port) : ActsAt p fun s => s.setPort p v := actsAt_modPort fun _ => v

theorem actsAt_give : ActsAt p fun s => s.give p :=
  ⟨fun slots v => v.serve fun i => (slots i).resultFrame, fun s => give_eq_serve s p⟩

theorem ActsAt.comp (hF : ActsAt p F) (hG : ActsAt p G) : ActsAt p fun s => G (F s) := by
  obtain ⟨f, hf⟩ := hF
  obtain ⟨g, hg⟩ := hG
  refine ⟨fun slots v => g slots (f slots v), fun s => ?_⟩
  have same : (s.setPort p (f s.slot (s.port p))).slot = s.slot := rfl
  change G (F s) = _
  rw [hf, hg, port_setPort, setPort_setPort, same]

/-- An operation chosen by its port. -/
theorem actsAt_byPort {K : Port → State → State} (h : ∀ v, ActsAt p (K v)) : ActsAt p fun s => K (s.port p) s := by
  choose f hf using h
  exact ⟨fun slots v => f v slots v, fun s => hf _ s⟩

theorem setPort_comm {v w : Port} (h : p ≠ q) : (s.setPort q w).setPort p v = (s.setPort p v).setPort q w := by
  have order : q.val ≠ p.val := fun e => h (Fin.ext e.symm)
  unfold State.setPort
  rw [Vector.set_comm _ _ order]

/-- Operations of two ports can change places. -/
theorem ActsAt.comm (hF : ActsAt p F) (hG : ActsAt q G) (h : q ≠ p) : F (G s) = G (F s) := by
  obtain ⟨f, hf⟩ := hF
  obtain ⟨g, hg⟩ := hG
  have same (k : PortId) (v : Port) : (s.setPort k v).slot = s.slot := rfl
  rw [hf, hg, hf s, hg (s.setPort p _), port_setPort_ne _ _ h, port_setPort_ne _ _ h.symm, same, same]
  exact setPort_comm h.symm

theorem actsAt_compose (e : StoreIx) (x : StoreEntry) : ActsAt p fun s => s.compose p e x :=
  ((actsAt_modPort _).comp (actsAt_modPort _)).comp actsAt_give

/-- A notice that has taken its sequence number enters the store where there is room, or is dropped (R163, R165). -/
def State.enterNotice (s : State) (p : PortId) (x : StoreEntry) : Option (StoreIx × Port) → State
  | some (e, v) => (s.setPort p v).compose p e x
  | none => s.modPort p fun v => { v with counters := { v.counters with noticesDropped := bump v.counters.noticesDropped } }

theorem notice_eq_enterNotice (s : State) (kind : NoticeKind) (arg : Byte) : s.notice p kind arg =
    (s.modPort p fun v => { v with noticeSeq := v.noticeSeq + 1 }).enterNotice p
      ⟨.notice, .ready, (s.port p).noticeSeq, [kind.code, arg], none, false⟩
      ({ s.port p with noticeSeq := (s.port p).noticeSeq + 1 } : Port).room := by
  have numbered : (s.modPort p fun v => { v with noticeSeq := v.noticeSeq + 1 }).port p =
      { s.port p with noticeSeq := (s.port p).noticeSeq + 1 } := port_setPort ..
  rw [← numbered]
  rfl

theorem actsAt_enterNotice (x : StoreEntry) (room : Option (StoreIx × Port)) :
    ActsAt p fun s => s.enterNotice p x room := by
  cases room with
  | some found => exact (actsAt_setPort found.2).comp (actsAt_compose found.1 x)
  | none =>
    exact actsAt_modPort fun v =>
      { v with counters := { v.counters with noticesDropped := bump v.counters.noticesDropped } }

theorem actsAt_notice (kind : NoticeKind) (arg : Byte) : ActsAt p fun s => s.notice p kind arg := by
  simp only [notice_eq_enterNotice]
  exact actsAt_byPort fun v => (actsAt_modPort _).comp
    (actsAt_enterNotice ⟨.notice, .ready, v.noticeSeq, [kind.code, arg], none, false⟩
      ({ v with noticeSeq := v.noticeSeq + 1 } : Port).room)

theorem actsAt_endBreak : ActsAt p fun s => s.endBreak p :=
  (((actsAt_modPort _).comp (actsAt_notice _ _)).comp (actsAt_modPort _)).comp actsAt_give

theorem actsAt_ite (c : Port → Prop) [DecidablePred c] (hF : ActsAt p F) (hG : ActsAt p G) :
    ActsAt p fun s => if c (s.port p) then F s else G s := by
  refine actsAt_byPort (K := fun v s => if c v then F s else G s) fun v => ?_
  split
  · exact hF
  · exact hG

theorem actsAt_endBreakIfMark : ActsAt p fun s => s.endBreakIfMark p :=
  actsAt_ite (fun v => v.receiver = .breakHold ∧ v.format.isMark v.hrx = true) actsAt_endBreak actsAt_id

theorem actsAt_switchNow (f : LineFormat) : ActsAt p fun s => s.switchNow p f :=
  actsAt_ite (fun v => v.receiver = .breakHold) ((actsAt_modPort _).comp actsAt_endBreakIfMark) (actsAt_modPort _)

/-- A line format set for another port changes that port alone (R128, R129). -/
theorem actsAt_setFormat (h : q ≠ p) (e : StoreIx) (f : LineFormat) : ActsAt q fun s => s.setFormat p q e f := by
  simp only [State.setFormat, if_neg h]
  exact actsAt_ite (fun v => f = v.format) actsAt_id
    (actsAt_ite (fun v => v.tx = .sending) (actsAt_modPort _) (actsAt_switchNow f))

end

end Sys2Proof.Machine
end

section
/-! SUPPORT. PORT_SET (R126 to R130, R171, R172, R178). -/
namespace Sys2Proof.Machine

section
variable {s : State} {p q : PortId} {tag n : Byte} {fields : List Byte} {x : Profile} {e : StoreIx}

theorem portOf_of_val (h : q.val = n.toNat) : portOf n = some q := by
  rw [portOf, dif_pos (h ▸ q.isLt)]
  exact congrArg some (Fin.ext h.symm)

/-- The managers are one port alone exactly when no other port is one (R172). -/
theorem eq_onlyPort_iff : ∀ (ps : PortSet) (q : PortId), ps = onlyPort q ↔ ∀ r, hasPort ps r = true ↔ r = q := by
  decide

/-- What a PORT_SET reads of a port is not touched by the MGMT that carries it (R137, R163). -/
theorem port_reserved_profile : ((s.reserved p e).port q).pendingSwitch = (s.port q).pendingSwitch ∧
    ((s.reserved p e).port q).format = (s.port q).format := by
  rw [State.reserved, port_setPort_eq]
  split
  · next own => rw [own]; exact ⟨rfl, rfl⟩
  · exact ⟨rfl, rfl⟩

/-- A PORT_SET of a manager with arguments in range (R178). -/
theorem exec_portSet (h : s.Manages p tag (opPortSet :: n :: fields) e) (hq : q.val = n.toNat)
    (hx : profileOfRecord fields = some x) : exec (.portSet p tag (n :: fields)) s = .next
      (if x.privilege = false ∧ ∀ r, hasPort s.managers r = true ↔ r = q then s.replied p e tag opPortSet .lastmgr []
      else if (s.port q).pendingSwitch.isSome then s.replied p e tag opPortSet .busy []
      else ((s.reserved p e).setProfile p q e x).mreply p e tag opPortSet .done []) := by
  have operation : (s.reserved p e).mgmtOp p e tag opPortSet (n :: fields) =
      (s.reserved p e).portSet p e tag (n :: fields) := rfl
  have managers : (s.reserved p e).managers = s.managers := rfl
  change execPortSet p tag (n :: fields) s = _
  rw [execPortSet, running_of h.arrives.running, completeMgmt_of_manages h, operation]
  simp only [State.portSet, portOf_of_val hq, hx, managers, eq_onlyPort_iff, port_reserved_profile.1,
    mreply_reserved h.arrives.served]

/-- The management privilege of a port set or taken away (R171). -/
def State.granted (s : State) (q : PortId) (x : Profile) : State :=
  { s with managers := withPort s.managers q x.privilege }

@[simp] theorem port_granted (k : PortId) : (s.granted q x).port k = s.port k := rfl

theorem ActsAt.granted {F : State → State} (hF : ActsAt p F) : F (s.granted q x) = (F s).granted q x := by
  obtain ⟨f, hf⟩ := hF
  rw [hf, hf s]
  rfl

/-- The part after a PORT_SET that is carried out, but for the port it names (R171, R173). -/
def State.portSetDone (s : State) (p q : PortId) (e : StoreIx) (tag : Byte) (x : Profile) : State :=
  (s.replied p e tag opPortSet .done []).granted q x

theorem portSetDone_eq : s.portSetDone p q e tag x =
    (s.granted q x).setPort p ((s.port p).heard.sends e (mreplyEntry tag opPortSet .done [])) := by
  have replied : s.replied p e tag opPortSet .done [] =
      s.setPort p ((s.port p).heard.sends e (mreplyEntry tag opPortSet .done [])) := by
    rw [State.replied, State.sends, State.heard, port_setPort, setPort_setPort]
  rw [State.portSetDone, replied]
  rfl

/-! ## The line format that is set (R128, R129) -/

section
variable {f : LineFormat}

theorem setFormat_of_same (same : f = (s.port q).format) : s.setFormat p q e f = s := by
  rw [State.setFormat, if_pos same]

theorem setFormat_of_own (differs : f ≠ (s.port q).format) :
    s.setFormat q q e f = s.modPort q fun v => { v with pendingSwitch := some ⟨f, .replySent e⟩ } := by
  rw [State.setFormat, if_neg differs, if_pos rfl]

theorem setFormat_of_sending (h : q ≠ p) (differs : f ≠ (s.port q).format) (sending : (s.port q).tx = .sending) :
    s.setFormat p q e f = s.setPort q { s.port q with pendingSwitch := some ⟨f, .messageSent⟩ } := by
  rw [State.setFormat, if_neg differs, if_neg h, if_pos sending, State.modPort]

theorem setFormat_of_silent (h : q ≠ p) (differs : f ≠ (s.port q).format) (silent : (s.port q).tx ≠ .sending) :
    s.setFormat p q e f = s.switchNow q f := by
  rw [State.setFormat, if_neg differs, if_neg h, if_neg silent]

/-- A format that comes into force in break hold ends the break where it makes the line's level mark (R126, R127, R130). -/
theorem switchNow_of_hold (hold : (s.port q).receiver = .breakHold) :
    s.switchNow q f = if (s.port q).hrx = f.inverted then s.setPort q ((s.port q).reformatted f)
      else (s.setPort q ((s.port q).reformatted f)).endBreak q := by
  have mark : f.isMark (s.port q).hrx = true ↔ (s.port q).hrx ≠ f.inverted := by rw [isMark_eq, bne_iff_ne]
  have formatted : (s.port q).applyInHold f = (s.port q).reformatted f := rfl
  have held : ((s.port q).reformatted f).receiver = .breakHold := hold
  have level : ((s.port q).reformatted f).format.isMark ((s.port q).reformatted f).hrx = f.isMark (s.port q).hrx := rfl
  rw [State.switchNow, if_pos hold, State.endBreakIfMark, State.modPort, port_setPort, formatted, level]
  by_cases same : (s.port q).hrx = f.inverted
  · rw [if_pos same, if_neg fun ⟨_, m⟩ => mark.mp m same]
  · rw [if_neg same, if_pos ⟨held, mark.mpr same⟩]

theorem switchNow_of_open (free : (s.port q).receiver ≠ .breakHold) :
    s.switchNow q f = s.setPort q ((s.port q).switched f) := by
  rw [State.switchNow, if_neg free, State.modPort, applySwitch_eq]

end

/-! ## The profile of another port, and that of the asking one -/

/-- For another port the reply stands beside what the port makes of its profile. -/
theorem setProfile_mreply_of_other (served : (s.port p).Served) (h : q ≠ p) :
    ((s.reserved p e).setProfile p q e x).mreply p e tag opPortSet .done [] =
      ((s.portSetDone p q e tag x).setPort q { s.port q with mask := x.mask }).setFormat p q e x.format := by
  have masked : ActsAt q fun s => (s.modPort q fun v => { v with mask := x.mask }).setFormat p q e x.format :=
    (actsAt_modPort _).comp (actsAt_setFormat h e x.format)
  have replies : ActsAt p fun s => s.mreply p e tag opPortSet .done [] := actsAt_compose ..
  have other : (s.portSetDone p q e tag x).port q = s.port q := by
    rw [portSetDone_eq, port_setPort_ne _ _ h, port_granted]
  have replied : ((s.reserved p e).granted q x).mreply p e tag opPortSet .done [] = s.portSetDone p q e tag x := by
    rw [State.portSetDone, ← mreply_reserved served]
    exact replies.granted
  rw [← other, ← replied]
  exact replies.comm masked h

/-- The reply of a port to itself, ahead of which `f` has changed what no sending reads (R128, R129). -/
theorem mreply_modPort_own {f : Port → Port} (served : (s.port p).Served)
    (sends : ∀ v y, (f v).sends e y = f (v.sends e y)) (idle : ∀ v : Port, v.Served → (f v).Served) :
    (((s.reserved p e).granted p x).modPort p f).mreply p e tag opPortSet .done [] =
      (s.portSetDone p p e tag x).modPort p f := by
  have state : (s.reserved p e).granted p x =
      (s.granted p x).setPort p ((s.port p).heard.setEntry e (some (StoreEntry.reserve .mreply))) := rfl
  rw [state, State.modPort, port_setPort, setPort_setPort, mreply_eq_sends (by rw [port_setPort]; exact idle _ served),
    State.sends, port_setPort, setPort_setPort, sends, Port.sends_setEntry, portSetDone_eq, State.modPort, port_setPort,
    setPort_setPort]

theorem setProfile_mreply_of_own_same (served : (s.port p).Served) (same : x.format = (s.port p).format) :
    ((s.reserved p e).setProfile p p e x).mreply p e tag opPortSet .done [] =
      (s.portSetDone p p e tag x).modPort p fun v => { v with mask := x.mask } := by
  have format : x.format =
      ((((s.reserved p e).granted p x).modPort p fun v => { v with mask := x.mask }).port p).format := by
    rw [State.modPort, port_setPort, same]
    exact port_reserved_profile.2.symm
  have set : (s.reserved p e).setProfile p p e x =
      ((s.reserved p e).granted p x).modPort p fun v => { v with mask := x.mask } := setFormat_of_same format
  rw [set]
  refine mreply_modPort_own served (fun v y => ?_) fun v idle => idle
  unfold Port.sends
  split <;> rfl

theorem setProfile_mreply_of_own_differs (served : (s.port p).Served) (differs : x.format ≠ (s.port p).format) :
    ((s.reserved p e).setProfile p p e x).mreply p e tag opPortSet .done [] = (s.portSetDone p p e tag x).modPort p
      fun v => { v with mask := x.mask, pendingSwitch := some ⟨x.format, .replySent e⟩ } := by
  have format : x.format ≠
      ((((s.reserved p e).granted p x).modPort p fun v => { v with mask := x.mask }).port p).format := by
    rw [State.modPort, port_setPort]
    exact port_reserved_profile.2.symm ▸ differs
  have set : (s.reserved p e).setProfile p p e x = ((s.reserved p e).granted p x).modPort p
      fun v => { v with mask := x.mask, pendingSwitch := some ⟨x.format, .replySent e⟩ } := by
    refine (setFormat_of_own format).trans ?_
    simp only [State.modPort, port_setPort, setPort_setPort]
  rw [set]
  refine mreply_modPort_own served (fun v y => ?_) fun v idle => idle
  unfold Port.sends
  split <;> rfl

end

/-- Settles O28: the asking port's profile is set ahead of the reply that its queue takes up, and another port's beside it,
where the transmitter and a break hold decide when the format comes into force. -/
theorem portSetChangesTheProfile : Obligations.PortSetChangesTheProfile := by
  intro p q tag n fields x e s h hq hx last done exec'
  have served := h.arrives.served
  have result : exec' = _ := exec_portSet h hq hx
  refine ⟨fun isLast => ?_, fun notLast pending => ?_, fun notLast free => ?_⟩
  · exact result.trans (congrArg _ (if_pos isLast))
  · exact result.trans (congrArg _ ((if_neg notLast).trans (if_pos pending)))
  rw [if_neg notLast, if_neg (by rw [free]; nofun)] at result
  have running : done.resetn = true := h.arrives.running
  have other (hp : q ≠ p) : exec' = .next ((done.setPort q { s.port q with mask := x.mask }).setFormat p q e x.format) :=
    result.trans (congrArg _ (setProfile_mreply_of_other served hp))
  have port : (done.setPort q { s.port q with mask := x.mask }).port q = { s.port q with mask := x.mask } := port_setPort ..
  refine ⟨fun same => ?_, fun differs => ⟨fun hp => ?_, fun hp sending => ?_, fun hp silent => ?_⟩⟩
  · by_cases hp : q = p
    · subst hp
      exact result.trans (congrArg _ (setProfile_mreply_of_own_same served same))
    · have beside : done.port q = s.port q := (congrArg (State.port · q) portSetDone_eq).trans (port_setPort_ne _ _ hp)
      rw [other hp, setFormat_of_same (by rw [port]; exact same), beside]
  · subst hp
    exact result.trans (congrArg _ (setProfile_mreply_of_own_differs served differs))
  · rw [other hp, setFormat_of_sending hp (by rw [port]; exact differs) (by rw [port]; exact sending), port,
      setPort_setPort]
  · rw [other hp, setFormat_of_silent hp (by rw [port]; exact differs) (by rw [port]; exact silent)]
    refine ⟨fun open_ => ?_, fun hold => ?_⟩
    · rw [switchNow_of_open (by rw [port]; exact open_), port, setPort_setPort]
      rfl
    · rw [switchNow_of_hold (by rw [port]; exact hold), port, setPort_setPort]
      refine ⟨fun space => congrArg _ (if_pos space), fun mark => (congrArg _ (if_neg mark)).trans ?_⟩
      exact (exec_breakEnd (s := done.setPort q _) running (by rw [port_setPort]; exact hold)).symm

end Sys2Proof.Machine
end

section
/-! SUPPORT. Message assembly by its state: good bytes and the expiry of the gap timer (R137, R138, R141, R142). -/
namespace Sys2Proof.Machine

section
variable {s : State} {p : PortId} {c : RxChar} {b : Byte}

/-! ## A good byte, by the state of assembly (R137, R138, R142) -/

theorem assembleByte_of_lead (idle : (s.port p).assembly.state = .idle) :
    s.assembleByte p leadByte = s.setPort p { s.port p with assembly := ⟨.receiving, [leadByte]⟩ } := by
  simp only [State.assembleByte, idle, if_true, State.modPort]

theorem assembleByte_of_noise (idle : (s.port p).assembly.state = .idle) (noise : b ≠ leadByte) :
    s.assembleByte p b = s.setPort p { s.port p with
      counters := { (s.port p).counters with noiseBytes := bump (s.port p).counters.noiseBytes } } := by
  simp only [State.assembleByte, idle, if_neg noise, State.modPort]

theorem assembleByte_of_receiving (receiving : (s.port p).assembly.state = .receiving) :
    s.assembleByte p b = s.receiveByte p b := by
  simp only [State.assembleByte, receiving]

theorem assembleByte_of_hunting (hunting : (s.port p).assembly.state = .hunting) : s.assembleByte p b = s := by
  simp only [State.assembleByte, hunting]

/-- A length byte above 200 abandons the frame that was being received (R138). -/
theorem receiveByte_of_long (receiving : (s.port p).assembly.state = .receiving)
    (three : (s.port p).assembly.buffer.length = 3) (long : 200 < b.toNat) :
    s.receiveByte p b = s.setPort p { s.port p with
      assembly := ⟨.hunting, []⟩
      counters := { (s.port p).counters with abandoned := bump (s.port p).counters.abandoned } } := by
  have abandons : ((s.port p).assembly.buffer ++ [b]).length = 4 ∧ Config.maxBody < b.toNat :=
    ⟨by rw [List.length_append, three]; rfl, long⟩
  unfold State.receiveByte
  dsimp only
  rw [if_pos abandons, State.modPort, Port.assemblyError, Port.countAbandoned, if_pos receiving]
  rfl

/-- A character judged good quiets its line, and its byte reaches assembly (R121, R122, R137). -/
theorem exec_goodCharacter (hr : s.resetn = true) (watch : (s.port p).receiver ≠ .breakWatch)
    (hold : (s.port p).receiver ≠ .breakHold) (good : (s.port p).format.judge c = .good b) :
    exec (.characterReceived p c) s = .next ((s.setPort p (s.port p).quietened).assembleByte p b) := by
  rw [exec_characterReceived hr ⟨watch, hold⟩, endCharacter_of_good good]

/-! ## The gap timer (R141) -/

theorem exec_gapTimerExpiry (hr : s.resetn = true) (runs : (s.port p).gapTimer.isSome = true) :
    exec (.gapTimerExpiry p) s = .next (s.setPort p (s.port p).gapExpiry) := by
  change execGapTimerExpiry p s = _
  rw [execGapTimerExpiry, running_of hr, if_pos runs, State.modPort]

/-- A gap timer that is stopped does not expire (log entry 2). -/
theorem exec_gapTimerExpiry_stopped (hr : s.resetn = true) (stopped : ¬(s.port p).gapTimer.isSome = true) :
    exec (.gapTimerExpiry p) s = .next s := by
  change execGapTimerExpiry p s = _
  rw [execGapTimerExpiry, running_of hr, if_neg stopped]

theorem gapExpiry_of_receiving {v : Port} (receiving : v.assembly.state = .receiving) :
    v.gapExpiry = { v with
      gapTimer := none
      assembly := ⟨.idle, []⟩
      counters := { v.counters with abandoned := bump v.counters.abandoned } } := by
  rw [Port.gapExpiry, Port.countAbandoned, if_pos receiving]
  rfl

/-- Outside receiving there is no frame for the gap to end, and nothing is counted (R141). -/
theorem gapExpiry_of_not_receiving {v : Port} (other : v.assembly.state ≠ .receiving) :
    v.gapExpiry = { v with gapTimer := none, assembly := ⟨.idle, []⟩ } := by
  rw [Port.gapExpiry, Port.countAbandoned, if_neg other]
  rfl

end

/-- Settles O11: the gap ends a frame and counts it, ends hunting, and leaves idle as it is. -/
theorem gapExpiryEndsFramesAndHunting : Obligations.GapExpiryEndsFramesAndHunting := by
  intro p s hr runs
  rw [exec_gapTimerExpiry hr runs]
  refine ⟨fun idle => ?_, fun receiving => ?_, fun hunting => ?_⟩
  · rw [gapExpiry_of_not_receiving (by rw [idle]; nofun), ← idle]
  · rw [gapExpiry_of_receiving receiving]
  · rw [gapExpiry_of_not_receiving (by rw [hunting]; nofun)]

/-- Settles O8: the lead byte opens a frame, any other byte is noise, an error makes assembly hunt, and the gap timer finds
nothing to end. -/
theorem idleAssemblyTakesItsEvents : Obligations.IdleAssemblyTakesItsEvents := by
  intro p c s hr watch hold idle
  have quiet : ((s.setPort p (s.port p).quietened).port p).assembly.state = .idle := by
    rw [port_setPort]; exact congrArg Assembly.state idle
  refine ⟨fun lead => ?_, fun b noise good => ?_, fun error => ?_, ?_⟩
  · refine (exec_goodCharacter hr watch hold lead).trans (congrArg _ ((assembleByte_of_lead quiet).trans ?_))
    rw [port_setPort, setPort_setPort]
    rfl
  · rw [exec_goodCharacter hr watch hold good, assembleByte_of_noise quiet noise, port_setPort, setPort_setPort]
    rfl
  · refine ⟨_, (exec_characterReceived hr ⟨watch, hold⟩).trans (congrArg _ (endCharacter_of_error error)), ?_⟩
    rw [port_setPort]
    exact ⟨rfl, rfl⟩
  · by_cases runs : (s.port p).gapTimer.isSome = true
    · refine ⟨_, exec_gapTimerExpiry hr runs, ?_⟩
      rw [port_setPort, gapExpiry_of_not_receiving (by rw [idle]; nofun)]
      exact ⟨rfl, rfl⟩
    · exact ⟨s, exec_gapTimerExpiry_stopped hr runs, idle, rfl⟩

/-- Settles O9: hunting takes no byte; in receiving the length byte may abandon the frame, a byte of a first part is
appended, and the last byte has the frame judged as its command does. -/
theorem receivingAppendsUntilTheFrameIsWhole : Obligations.ReceivingAppendsUntilTheFrameIsWhole := by
  intro p c b s hr watch hold good
  rw [exec_goodCharacter hr watch hold good]
  have quiet : (s.setPort p (s.port p).quietened).port p = (s.port p).quietened := port_setPort ..
  have assembly : (s.port p).quietened.assembly = (s.port p).assembly := rfl
  refine ⟨fun hunting => ?_, fun receiving => ?_⟩
  · rw [assembleByte_of_hunting (by rw [quiet]; exact hunting)]
  have state : ((s.setPort p (s.port p).quietened).port p).assembly.state = .receiving := by rw [quiet]; exact receiving
  rw [assembleByte_of_receiving state]
  refine ⟨fun three long => ?_, fun kind tag body crc rest fits more parts => ?_, fun kind tag body crc fits whole => ?_⟩
  · rw [receiveByte_of_long state (by rw [quiet]; exact three) long, quiet, setPort_setPort]
    rfl
  · rw [receiveByte_of_part (by rw [quiet]; exact parts) fits, if_neg more, quiet, setPort_setPort, assembly]
  · have hears : (s.port p).Hears (frameWithCrc kind tag body crc) :=
      ⟨watch, hold, by rw [receiving]; nofun, [b], List.cons_ne_nil _ _, whole⟩
    rw [receiveByte_of_part (rest := []) (by rw [quiet]; exact whole) fits, if_pos rfl, exec_messageCommand hr,
      completeFrame_eq hears fits]

end Sys2Proof.Machine
end

section
/-! SUPPORT. The commands of host messages as completed frames, the gate with room and without it, and refusals (R134, R135,
R139, R144, R147, R151, R163). -/
namespace Sys2Proof.Machine

/-! ## The command of a message is the completion of its frame -/

section
variable {c : Instr} {s : State} {p : PortId} {kind tag : Byte} {body : List Byte} {crc : BitVec 16} {e d : StoreIx}

theorem exec_of_mgmtOf (hr : s.resetn = true) (h : mgmtOf c = some (p, tag, body)) :
    exec c s = .next (s.completeMessage p kindMgmt tag body) := by
  cases c with
  | mapWrite | mapRead | mapRetire | portSet | portRead | segSet | segHold | segRelease | segRecover | segReset
  | statusRead | restart =>
    cases h
    exact running_of hr
  | mgmtBadop q t m =>
    rw [mgmtOf] at h
    split at h
    · cases h
    · next unnamed =>
      cases h
      exact exec_mgmtBadop hr (Bool.eq_false_iff.mpr unnamed)
  | _ => cases h

theorem exec_badverBadkind (hr : s.resetn = true) (refused : kindAccepted kind = false) :
    exec (.badverBadkindMessage p kind tag body) s = .next (s.completeMessage p kind tag body) := by
  change execBadverBadkindMessage p kind tag body s = _
  rw [execBadverBadkindMessage, running_of hr, refused]
  rfl

/-- A message whose reply waits for room completes its frame, and is no TXN (R163). -/
theorem exec_of_gatedOf (h : gatedOf c = some (p, kind, tag, body)) :
    kind ≠ kindTxn ∧ ∀ s : State, s.resetn = true → exec c s = .next (s.completeMessage p kind tag body) := by
  unfold gatedOf at h
  split at h
  · cases h
    exact ⟨by decide, fun s hr => running_of hr⟩
  · split at h
    · cases h
    · next refused =>
      cases h
      refine ⟨?_, fun s hr => exec_badverBadkind hr (Bool.eq_false_iff.mpr refused)⟩
      rintro rfl
      exact refused rfl
  · obtain ⟨⟨_, _, _⟩, hm, same⟩ := Option.map_eq_some_iff.mp h
    cases same
    exact ⟨by decide, fun s hr => exec_of_mgmtOf hr hm⟩

/-! ## A version or a kind that no host may send (R144) -/

theorem completeMessage_of_badver (h : s.Arrives p kind tag body) (ver : kindVersion kind ≠ 1) :
    s.completeMessage p kind tag body = (s.heard p).gatedRefuse p .badver kind tag := by
  rw [completeMessage_eq h, State.takeMessage, accepted_eq]
  exact if_pos ver

theorem completeMessage_of_badkind (h : s.Arrives p kind tag body) (ver : kindVersion kind = 1)
    (txn : kindCode kind ≠ 1) (cancel : kindCode kind ≠ 2) (mgmt : kindCode kind ≠ 3) :
    s.completeMessage p kind tag body = (s.heard p).gatedRefuse p .badkind kind tag := by
  rw [completeMessage_eq h, State.takeMessage, accepted_eq, if_neg (not_not.mpr ver), if_neg txn, if_neg cancel, if_neg mgmt]

theorem kindAccepted_of_version (ver : kindVersion kind ≠ 1) : kindAccepted kind = false := by
  rw [kindAccepted, beq_false_of_ne ver, Bool.false_and]

theorem kindAccepted_of_code (txn : kindCode kind ≠ 1) (cancel : kindCode kind ≠ 2) (mgmt : kindCode kind ≠ 3) :
    kindAccepted kind = false := by
  rw [kindAccepted, beq_false_of_ne txn, beq_false_of_ne cancel, beq_false_of_ne mgmt, Bool.or_self, Bool.or_self,
    Bool.and_false]

/-- A good message that finds a free entry for its refusal (R144, R163). -/
theorem gatedRefuse_heard {reason : Reason} (served : (s.port p).Served) (free : (s.port p).freeEntry = some e) :
    (s.heard p).gatedRefuse p reason kind tag = (s.heard p).sends p e (refuseEntry reason kind tag) := by
  have heard : (s.heard p).port p = (s.port p).heard := port_setPort ..
  exact gatedRefuse_eq (by rw [heard]; exact heard_served served) (by rw [heard, heard_freeEntry, free])

/-! ## The CRC (R135, R139) -/

theorem crcBit_eq (r : BitVec 16) (bit : Bool) :
    crcBit r bit = if r.msb = bit then r <<< 1 else (r <<< 1) ^^^ 0x1021#16 := by
  simp only [crcBit, beq_iff_eq, BitVec.msb_eq_getLsbD_last]

/-- A byte is taken most significant bit first (R135). -/
theorem crcByte_eq (r : BitVec 16) (b : Byte) : crcByte r b = (List.range 8).foldl
    (fun (r : BitVec 16) k => if r.msb = b.getMsbD k then r <<< 1 else (r <<< 1) ^^^ 0x1021#16) r := by
  have order : [7, 6, 5, 4, 3, 2, 1, 0] = (List.range 8).map (7 - ·) := rfl
  rw [crcByte, order, List.foldl_map]
  refine List.foldl_ext _ _ _ fun r k hk => ?_
  rw [crcBit_eq, BitVec.getMsbD_eq_getLsbD, decide_eq_true (List.mem_range.mp hk), Bool.true_and]

theorem crcOf_append (bytes : List Byte) (b : Byte) : crcOf (bytes ++ [b]) = crcByte (crcOf bytes) b :=
  List.foldl_append

/-- The check value of R135. -/
theorem crcOf_check : crcOf [0x31, 0x32, 0x33, 0x34, 0x35, 0x36, 0x37, 0x38, 0x39] = 0x29B1#16 := by decide +kernel

/-- A frame whose CRC does not match is counted and goes no further (R139). -/
theorem exec_crcError (hr : s.resetn = true) (fits : body.length ≤ 200) (mismatch : crcOf (covered kind tag body) ≠ crc)
    (hears : (s.port p).Hears (frameWithCrc kind tag body crc)) :
    exec (.crcError p kind tag body crc) s = .next (s.setPort p
      { (s.port p).framed with
        counters := { (s.port p).counters with crcErrors := bump (s.port p).counters.crcErrors } }) := by
  change execCrcError p kind tag body crc s = _
  rw [execCrcError, running_of hr, if_neg mismatch, completeFrame_eq hears fits, State.judgeFrame, if_neg mismatch]
  simp only [State.modPort, port_setPort, setPort_setPort]
  rfl

/-! ## Free entries and ready notices (R163) -/

theorem freeEntry_eq_find (v : Port) : v.freeEntry = Fin.find? fun e => v.store[e].isNone :=
  (Fin.find?_eq_find?_finRange (p := fun e => v.store[e].isNone)).symm

theorem freeEntry_eq_none_iff {v : Port} : v.freeEntry = none ↔ ∀ e : StoreIx, v.store[e].isSome = true := by
  simp only [freeEntry_eq_find, Fin.find?_eq_none_iff, Option.isNone_eq_false_iff]

theorem freeEntry_eq_some_iff {v : Port} :
    v.freeEntry = some e ↔ v.store[e] = none ∧ ∀ f < e, v.store[f].isSome = true := by
  simp only [freeEntry_eq_find, Fin.find?_eq_some_iff, Option.isNone_eq_false_iff, Option.isNone_iff_eq_none]

theorem readyNotice_iff {v : Port} :
    v.readyNotice e = true ↔ ∃ x, v.store[e] = some x ∧ x.kind = .notice ∧ x.condition = .ready := by
  unfold Port.readyNotice
  split
  · next x hx => simp [hx]
  · next hx => simp [hx]

/-- The store entry of a queue item that is a ready NOTICE. -/
def Port.noticeOf (v : Port) : Item → Option StoreIx
  | .entry e => if v.readyNotice e then some e else none
  | .result _ => none

theorem oldestNotice_eq (v : Port) : v.oldestNotice = v.queue.findSome? v.noticeOf := by
  refine congrArg (fun f => v.queue.findSome? f) (funext fun item => ?_)
  cases item <;> rfl

theorem noticeOf_eq_none_iff {v : Port} {item : Item} :
    v.noticeOf item = none ↔ ∀ e, item = .entry e → ¬v.readyNotice e = true := by
  cases item with
  | result i => exact iff_of_true rfl nofun
  | entry f => simp [Port.noticeOf]

theorem noticeOf_eq_some_iff {v : Port} {item : Item} :
    v.noticeOf item = some d ↔ item = .entry d ∧ v.readyNotice d = true := by
  cases item with
  | result i => exact iff_of_false nofun fun ⟨entry, _⟩ => by cases entry
  | entry f =>
    simp only [Port.noticeOf, Option.ite_none_right_eq_some, Option.some.injEq, Item.entry.injEq]
    exact ⟨fun ⟨ready, same⟩ => ⟨same, same ▸ ready⟩, fun ⟨same, ready⟩ => ⟨same ▸ ready, same⟩⟩

theorem none_ready_iff {v : Port} {items : List Item} :
    (∀ item ∈ items, v.noticeOf item = none) ↔ ∀ e, .entry e ∈ items → ¬v.readyNotice e = true := by
  simp only [noticeOf_eq_none_iff]
  exact ⟨fun h e he => h _ he e rfl, fun h item hi e same => h e (same ▸ hi)⟩

theorem oldestNotice_eq_none_iff {v : Port} :
    v.oldestNotice = none ↔ ∀ e, .entry e ∈ v.queue → ¬v.readyNotice e = true := by
  rw [oldestNotice_eq, List.findSome?_eq_none_iff, none_ready_iff]

/-- The oldest ready NOTICE is the first in queue order (R163). -/
theorem oldestNotice_eq_some_iff {v : Port} :
    v.oldestNotice = some d ↔ ∃ before after, v.queue = before ++ .entry d :: after ∧ v.readyNotice d = true ∧
      ∀ e, .entry e ∈ before → ¬v.readyNotice e = true := by
  simp only [oldestNotice_eq, List.findSome?_eq_some_iff, noticeOf_eq_some_iff, none_ready_iff]
  constructor
  · rintro ⟨before, item, after, queue, ⟨rfl, ready⟩, first⟩
    exact ⟨before, after, queue, ready, first⟩
  · rintro ⟨before, after, queue, ready, first⟩
    exact ⟨before, .entry d, after, queue, ⟨rfl, ready⟩, first⟩

/-- A notice dropped from a full store leaves its entry as the only free one (R163). -/
theorem freeEntry_dropNotice {v : Port} (full : v.freeEntry = none) : (v.dropNotice d).freeEntry = some d := by
  refine freeEntry_eq_some_iff.mpr ⟨store_dropNotice v, fun f hf => ?_⟩
  have other : (v.dropNotice d).store[f] = v.store[f] := (store_set v none).trans (if_neg hf.ne)
  rw [other]
  exact freeEntry_eq_none_iff.mp full f

/-! ## A full store at the gate (R163) -/

theorem port_heard : (s.heard p).port p = (s.port p).heard := port_setPort ..

theorem managers_reserved : (s.reserved p e).managers = s.managers := rfl

/-- The gate of a MGMT that finds a free entry (R147, R163). -/
theorem gate_heard_of_free {f : StoreIx → State → State} (free : (s.port p).freeEntry = some e) :
    (s.heard p).gate p .mreply f = f e (s.reserved p e) := by
  rw [gate_of_free (by rw [port_heard, heard_freeEntry, free]), port_heard, State.heard, setPort_setPort]
  rfl

/-- The gate of a full store drops the oldest ready NOTICE, as if it had been dropped before (R163). -/
theorem gate_heard_of_notice {k : ShortKind} {f : StoreIx → State → State} (full : (s.port p).freeEntry = none)
    (oldest : (s.port p).oldestNotice = some d) :
    (s.heard p).gate p k f = ((s.setPort p ((s.port p).dropNotice d)).heard p).gate p k f := by
  have dropped : (s.setPort p ((s.port p).dropNotice d)).heard p = s.setPort p ((s.port p).dropNotice d).heard := by
    rw [State.heard, port_setPort, setPort_setPort]
  have free : ((s.setPort p ((s.port p).dropNotice d).heard).port p).freeEntry = some d := by
    rw [port_setPort, heard_freeEntry, freeEntry_dropNotice full]
  rw [gate_of_notice (by rw [port_heard, heard_freeEntry, full]) (by rw [port_heard, heard_oldestNotice, oldest]), dropped,
    gate_of_free free, port_heard, State.heard, setPort_setPort, port_setPort, setPort_setPort]
  rfl

/-- With no ready NOTICE the gate of a full store discards the message and counts it (R163). -/
theorem gate_heard_of_full {k : ShortKind} {f : StoreIx → State → State} (full : (s.port p).freeEntry = none)
    (oldest : (s.port p).oldestNotice = none) : (s.heard p).gate p k f = s.setPort p
      { (s.port p).framed with
        counters := { (s.port p).counters with
          accepted := bump (s.port p).counters.accepted
          silentDiscards := bump (s.port p).counters.silentDiscards } } := by
  rw [gate_of_full (by rw [port_heard, heard_freeEntry, full]) (by rw [port_heard, heard_oldestNotice, oldest]),
    port_heard, State.heard, setPort_setPort]
  rfl

/-- A message that is no TXN meets the gate as soon as it is handed on (R144, R146, R147, R163). -/
theorem completeMessage_gate (other : kind ≠ kindTxn) : ∃ k f, ∀ s : State, s.Arrives p kind tag body →
    s.completeMessage p kind tag body = (s.heard p).gate p k f := by
  by_cases cancel : kind = kindCancel
  · subst cancel
    exact ⟨_, _, fun s h => completeCancel_eq h⟩
  by_cases mgmt : kind = kindMgmt
  · subst mgmt
    exact ⟨_, _, fun s h => completeMgmt_eq h⟩
  by_cases ver : kindVersion kind = 1
  · have refused : kindAccepted kind = false :=
      Bool.eq_false_iff.mpr fun h => ((kindAccepted_iff kind).mp h).elim other fun h => h.elim cancel mgmt
    simp only [kindAccepted, ver, beq_self_eq_true, Bool.true_and, Bool.or_eq_false_iff, beq_eq_false_iff_ne] at refused
    obtain ⟨⟨txn, two⟩, three⟩ := refused
    exact ⟨_, _, fun s h => completeMessage_of_badkind h ver txn two three⟩
  · exact ⟨_, _, fun s h => completeMessage_of_badver h ver⟩

/-- Each message of R163 acts through the gate alone, whatever its port holds. -/
theorem exec_gate (h : gatedOf c = some (p, kind, tag, body) ∨
      (c = .txn p tag body ∧ kind = kindTxn ∧ ∃ reason, s.checkTxn p tag body = .error reason)) :
    ∃ k f, ∀ v, (s.setPort p v).Arrives p kind tag body →
      exec c (s.setPort p v) = .next (((s.setPort p v).heard p).gate p k f) := by
  rcases h with gated | ⟨rfl, rfl, reason, fails⟩
  · obtain ⟨other, completes⟩ := exec_of_gatedOf gated
    obtain ⟨k, f, gate⟩ := completeMessage_gate (p := p) (tag := tag) (body := body) other
    exact ⟨k, f, fun v arrives => (completes _ arrives.running).trans (congrArg _ (gate _ arrives))⟩
  · refine ⟨.refuse, fun e s => s.refuse p e reason kindTxn tag, fun v arrives => ?_⟩
    change execTxn p tag body _ = _
    rw [execTxn, running_of arrives.running, completeTxn_eq arrives, State.takeTxn, State.heard, checkTxn_setPort,
      checkTxn_setPort, fails]
    rfl

/-! ## A MGMT that is refused (R147) -/

/-- A REFUSE composed in the entry that the gate reserved is sent there. -/
theorem refuse_reserved {reason : Reason} (served : (s.port p).Served) :
    (s.reserved p e).refuse p e reason kind tag = (s.heard p).sends p e (refuseEntry reason kind tag) := by
  have reserved : ((s.reserved p e).port p).Served := by rw [State.reserved, port_setPort]; exact served
  rw [State.refuse, compose_eq_sends reserved, State.sends, State.reserved, State.sends, State.heard]
  simp only [port_setPort, setPort_setPort, Port.sends_setEntry]
  rfl

theorem completeMgmt_of_unprivileged (h : s.Arrives p kindMgmt tag body) (free : (s.port p).freeEntry = some e)
    (unprivileged : hasPort s.managers p = false) :
    s.completeMessage p kindMgmt tag body = (s.heard p).sends p e (refuseEntry .nopriv kindMgmt tag) := by
  rw [completeMgmt_eq h, State.takeMgmt, gate_heard_of_free free, managers_reserved, if_pos unprivileged,
    refuse_reserved h.served]

theorem completeMgmt_of_empty (h : s.Arrives p kindMgmt tag []) (free : (s.port p).freeEntry = some e)
    (manager : hasPort s.managers p = true) :
    s.completeMessage p kindMgmt tag [] = (s.heard p).sends p e (refuseEntry .badfmt kindMgmt tag) := by
  rw [completeMgmt_eq h, State.takeMgmt, gate_heard_of_free free, managers_reserved, if_neg (by rw [manager]; nofun),
    refuse_reserved h.served]

theorem mgmtOp_of_unknown {op : Byte} {args : List Byte} (unknown : op ∉ mgmtOps) :
    s.mgmtOp p e tag op args = s.refuse p e .badop kindMgmt tag := by
  simp only [mgmtOps, List.mem_cons, List.not_mem_nil, or_false, not_or] at unknown
  obtain ⟨mapWrite, mapRead, mapRetire, portSet, portRead, segSet, segHold, segRelease, segRecover, segReset, statusRead,
    restart⟩ := unknown
  rw [State.mgmtOp, if_neg mapWrite, if_neg mapRead, if_neg mapRetire, if_neg portSet, if_neg portRead, if_neg segSet,
    if_neg segHold, if_neg segRelease, if_neg segRecover, if_neg segReset, if_neg statusRead, if_neg restart]

end

/-- Settles O14: the frame and its CRC as composed, and the two ways in which a whole frame is not handed on. -/
theorem framesNotHandedOn : Obligations.FramesNotHandedOn := by
  refine ⟨fun _ _ _ _ => rfl, fun _ _ _ => rfl, ⟨rfl, crcOf_check, fun bytes b => ?_⟩, fun x => ?_,
    fun p kind tag body s => ⟨fun crc => exec_crcError, fun e h free => ⟨fun ver => ?_, fun ver txn cancel mgmt => ?_⟩⟩⟩
  · rw [crcOf_append, crcByte_eq]
  · obtain ⟨shortKind, _, _, _, _, _⟩ := x
    cases shortKind <;> rfl
  · rw [exec_badverBadkind h.running (kindAccepted_of_version ver), completeMessage_of_badver h ver,
      gatedRefuse_heard h.served free]
  · rw [exec_badverBadkind h.running (kindAccepted_of_code txn cancel mgmt),
      completeMessage_of_badkind h ver txn cancel mgmt, gatedRefuse_heard h.served free]

/-- Settles O20: each such message acts through the gate alone, and the gate of a full store is told by the oldest ready
NOTICE. -/
theorem fullStoreDropsANoticeOrDiscards : Obligations.FullStoreDropsANoticeOrDiscards := by
  refine ⟨fun v => ⟨freeEntry_eq_none_iff, fun e => freeEntry_eq_some_iff, ?_, fun d => ?_⟩,
    fun c p kind tag body s arrives full message => ?_⟩
  · simp only [oldestNotice_eq_none_iff, readyNotice_iff]
  · simp only [oldestNotice_eq_some_iff, readyNotice_iff]
  obtain ⟨k, f, gate⟩ := exec_gate message
  have here : exec c s = .next ((s.heard p).gate p k f) := by simpa using gate (s.port p) (by simpa using arrives)
  refine ⟨fun d oldest => ?_, fun oldest => ?_⟩
  · have there : (s.setPort p ((s.port p).dropNotice d)).Arrives p kind tag body :=
      ⟨arrives.running, arrives.fits, by rw [port_setPort]; exact arrives.hears,
        by rw [port_setPort]; exact served_dropNotice arrives.served⟩
    rw [here, gate_heard_of_notice full oldest]
    exact (gate _ there).symm
  · rw [here, gate_heard_of_full full oldest]

/-- Settles O21: the privilege is judged first, then that the body is not empty, then the operation. -/
theorem managementNeedsPrivilegeAndAnOperation : Obligations.ManagementNeedsPrivilegeAndAnOperation := by
  intro c p tag body e s spells arrives free
  rw [exec_of_mgmtOf arrives.running spells]
  refine ⟨fun unprivileged => ?_, fun manager => ⟨fun empty => ?_, fun badop notEmpty => ?_⟩⟩
  · rw [completeMgmt_of_unprivileged arrives free unprivileged]
    rfl
  · subst empty
    rw [completeMgmt_of_empty arrives free manager]
    rfl
  · obtain ⟨op, args, rfl⟩ := List.exists_cons_of_ne_nil notEmpty
    have unknown : op ∉ mgmtOps := fun known => by
      rw [badop, mgmtOf, mgmtNamed, if_pos (List.contains_iff_mem.mpr known)] at spells
      cases spells
    rw [completeMgmt_of_manages ⟨arrives, free, manager⟩, mgmtOp_of_unknown unknown, refuse_reserved arrives.served]
    rfl

end Sys2Proof.Machine
end

section
/-! SUPPORT. Management operations that only reply: arguments that are not carried out, and the reads (R154 to R157, R174 to
R189). -/
namespace Sys2Proof.Machine

/-! ## What the bytes of arguments can name -/

section
variable {b : Byte} {fields : List Byte}

theorem targetOf_le {t : TargetId} (h : targetOf b = some t) : b.toNat ≤ 47 := by
  rw [targetOf] at h
  split at h
  · omega
  · cases h

theorem portOf_le {q : PortId} (h : portOf b = some q) : b.toNat ≤ 3 := by
  rw [portOf] at h
  split at h
  · omega
  · cases h

theorem segOf_le {g : SegId} (h : segOf b = some g) : b.toNat ≤ 1 := by
  rw [segOf_iff.mp h]
  cases g <;> decide

theorem flagOf_le {v : Bool} (h : flagOf b = some v) : b.toNat ≤ 1 := by
  rw [flagOf_iff.mp h]
  cases v <;> decide

theorem entryOfRecord_length {x : MapEntry} (h : entryOfRecord fields = some x) : fields.length = 17 := by
  rw [(entryOfRecord_sound h).1]
  rfl

theorem profileOfRecord_length {x : Profile} (h : profileOfRecord fields = some x) : fields.length = 10 := by
  rw [(profileOfRecord_sound h).1]
  rfl

/-- The values of a setup record are in range (R180). -/
theorem setupOfBytes_sound {x : Setup} (h : setupOfBytes fields = some x) :
    ∃ en bf st bl, fields = [en, bf, st, bl] ∧ en.toNat ≤ 1 ∧ bf ≠ 0 ∧ st ≠ 0 := by
  unfold setupOfBytes at h
  split at h
  · next en bf st bl =>
    split at h
    · next flag =>
      split at h
      · cases h
      · next zero =>
        obtain ⟨wait, stretch⟩ := not_or.mp zero
        exact ⟨en, bf, st, bl, rfl, flagOf_le flag, wait, stretch⟩
    · cases h
  · cases h

/-- The selectors of R157. -/
theorem selectorOf_mem : ∀ b : Byte, selectorOf b ≠ none →
    b ∈ [0x00#8, 0x01#8, 0x02#8, 0x03#8, 0x10#8, 0x11#8, 0x20#8] := by
  decide

end

/-! ## Arguments that no operation reads (R174) -/

section
variable {c : Instr} {s : State} {p : PortId} {tag op : Byte} {args : List Byte} {e : StoreIx}

theorem mapWrite_badarg (h : ∀ ix fields t x, args = ix :: fields → targetOf ix = some t → entryOfRecord fields ≠ some x) :
    s.mgmtOp p e tag opMapWrite args = s.badarg p e tag opMapWrite := by
  change s.mapWrite p e tag args = _
  unfold State.mapWrite
  split
  · split
    · next t x ht hx => exact absurd hx (h _ _ t x rfl ht)
    · rfl
  · rfl

theorem mapRead_badarg (h : ∀ ix t, args = [ix] → targetOf ix ≠ some t) :
    s.mgmtOp p e tag opMapRead args = s.badarg p e tag opMapRead := by
  change s.mapRead p e tag args = _
  unfold State.mapRead
  split
  · split
    · next t ht => exact absurd ht (h _ t rfl)
    · rfl
  · rfl

theorem mapRetire_badarg (h : ∀ ix fl t v, args = [ix, fl] → targetOf ix = some t → flagOf fl ≠ some v) :
    s.mgmtOp p e tag opMapRetire args = s.badarg p e tag opMapRetire := by
  change s.mapRetire p e tag args = _
  unfold State.mapRetire
  split
  · split
    · next t v ht hv => exact absurd hv (h _ _ t v rfl ht)
    · rfl
  · rfl

theorem portSet_badarg (h : ∀ n fields q x, args = n :: fields → portOf n = some q → profileOfRecord fields ≠ some x) :
    s.mgmtOp p e tag opPortSet args = s.badarg p e tag opPortSet := by
  change s.portSet p e tag args = _
  unfold State.portSet
  split
  · split
    · next q x hq hx => exact absurd hx (h _ _ q x rfl hq)
    · rfl
  · rfl

theorem portRead_badarg (h : ∀ n q, args = [n] → portOf n ≠ some q) :
    s.mgmtOp p e tag opPortRead args = s.badarg p e tag opPortRead := by
  change s.portRead p e tag args = _
  unfold State.portRead
  split
  · split
    · next q hq => exact absurd hq (h _ q rfl)
    · rfl
  · rfl

theorem segSet_badarg (h : ∀ gb fields g x, args = gb :: fields → segOf gb = some g → setupOfBytes fields ≠ some x) :
    s.mgmtOp p e tag opSegSet args = s.badarg p e tag opSegSet := by
  change s.segSet p e tag args = _
  unfold State.segSet
  split
  · split
    · next g x hg hx => exact absurd hx (h _ _ g x rfl hg)
    · rfl
  · rfl

theorem segHold_badarg (h : ∀ gb g, args = [gb] → segOf gb ≠ some g) :
    s.mgmtOp p e tag opSegHold args = s.badarg p e tag opSegHold := by
  change s.segHold p e tag args = _
  unfold State.segHold
  split
  · split
    · next g hg => exact absurd hg (h _ g rfl)
    · rfl
  · rfl

theorem segRelease_badarg (h : ∀ gb g, args = [gb] → segOf gb ≠ some g) :
    s.mgmtOp p e tag opSegRelease args = s.badarg p e tag opSegRelease := by
  change s.segRelease p e tag args = _
  unfold State.segRelease
  split
  · split
    · next g hg => exact absurd hg (h _ g rfl)
    · rfl
  · rfl

theorem segRecover_badarg (h : ∀ gb g, args = [gb] → segOf gb ≠ some g) :
    s.mgmtOp p e tag opSegRecover args = s.badarg p e tag opSegRecover := by
  change s.segRecover p e tag args = _
  unfold State.segRecover
  split
  · split
    · next g hg => exact absurd hg (h _ g rfl)
    · rfl
  · rfl

theorem segReset_badarg (h : ∀ gb g, args = [gb] → segOf gb ≠ some g) :
    s.mgmtOp p e tag opSegReset args = s.badarg p e tag opSegReset := by
  change s.segReset p e tag args = _
  unfold State.segReset
  split
  · split
    · next g hg => exact absurd hg (h _ g rfl)
    · rfl
  · rfl

theorem statusRead_badarg (h : ∀ sel fl x v, args = [sel, fl] → selectorOf sel = some x → flagOf fl ≠ some v) :
    s.mgmtOp p e tag opStatusRead args = s.badarg p e tag opStatusRead := by
  change s.statusRead p e tag args = _
  unfold State.statusRead
  split
  · split
    · next x v hx hv => exact absurd hv (h _ _ x v rfl hx)
    · rfl
  · rfl

theorem restartOp_badarg (h : args ≠ []) : s.mgmtOp p e tag opRestart args = s.badarg p e tag opRestart := by
  change s.restartOp p e tag args = _
  unfold State.restartOp
  split
  · exact absurd rfl h
  · rfl

/-- Arguments of a wrong number are carried out by no operation (R154, R174). -/
theorem mgmtOp_of_number (known : op ∈ mgmtOps) (number : args.length ≠ argumentCount op) :
    s.mgmtOp p e tag op args = s.badarg p e tag op := by
  simp only [mgmtOps, List.mem_cons, List.not_mem_nil, or_false] at known
  rcases known with rfl | rfl | rfl | rfl | rfl | rfl | rfl | rfl | rfl | rfl | rfl | rfl
  · exact mapWrite_badarg fun _ _ _ _ ha _ hx => number (by rw [ha, List.length_cons, entryOfRecord_length hx]; rfl)
  · exact mapRead_badarg fun _ _ ha _ => number (by rw [ha]; rfl)
  · exact mapRetire_badarg fun _ _ _ _ ha _ _ => number (by rw [ha]; rfl)
  · exact portSet_badarg fun _ _ _ _ ha _ hx => number (by rw [ha, List.length_cons, profileOfRecord_length hx]; rfl)
  · exact portRead_badarg fun _ _ ha _ => number (by rw [ha]; rfl)
  · refine segSet_badarg fun _ _ _ _ ha _ hx => ?_
    obtain ⟨_, _, _, _, rfl, _⟩ := setupOfBytes_sound hx
    exact number (by rw [ha]; rfl)
  · exact segHold_badarg fun _ _ ha _ => number (by rw [ha]; rfl)
  · exact segRelease_badarg fun _ _ ha _ => number (by rw [ha]; rfl)
  · exact segRecover_badarg fun _ _ ha _ => number (by rw [ha]; rfl)
  · exact segReset_badarg fun _ _ ha _ => number (by rw [ha]; rfl)
  · exact statusRead_badarg fun _ _ _ _ ha _ _ => number (by rw [ha]; rfl)
  · exact restartOp_badarg fun ha => number (by rw [ha]; rfl)

/-- The command of a MGMT that reaches its operation (R147). -/
theorem exec_of_manages (h : s.Manages p tag (op :: args) e) (spells : mgmtOf c = some (p, tag, op :: args)) :
    exec c s = .next ((s.reserved p e).mgmtOp p e tag op args) := by
  rw [exec_of_mgmtOf h.arrives.running spells, completeMgmt_of_manages h]

/-- An operation that is not carried out only replies BADARG (R173, R174). -/
theorem exec_badarg (h : s.Manages p tag (op :: args) e) (spells : mgmtOf c = some (p, tag, op :: args))
    (bad : (s.reserved p e).mgmtOp p e tag op args = (s.reserved p e).badarg p e tag op) :
    exec c s = .next (s.replied p e tag op .badarg []) := by
  rw [exec_of_manages h spells, bad, State.badarg, mreply_reserved h.arrives.served]

end

/-- Settles O22: a wrong number of arguments first, then each operation's values out of range. -/
theorem badArgumentsAreAnsweredWithoutEffect : Obligations.BadArgumentsAreAnsweredWithoutEffect := by
  refine ⟨rfl, fun _ _ _ _ => rfl, fun p tag e s => ⟨fun c op args spells known h number => ?_, fun ix fields h bad => ?_,
    fun ix h large => ?_, fun ix fl h bad => ?_, fun n fields h bad => ?_, fun n h large => ?_,
    fun gb en bf st bl h bad => ?_, fun gb large => ?_, fun sel fl h bad => ?_⟩⟩
  · exact exec_badarg h spells (mgmtOp_of_number known number)
  · refine exec_badarg h rfl (mapWrite_badarg fun _ _ t x ha ht hx => ?_)
    cases ha
    rcases bad with large | none
    · exact absurd (targetOf_le ht) (by omega)
    · rw [none] at hx; cases hx
  · refine exec_badarg h rfl (mapRead_badarg fun _ t ha ht => ?_)
    cases ha
    exact absurd (targetOf_le ht) (by omega)
  · refine exec_badarg h rfl (mapRetire_badarg fun _ _ t v ha ht hv => ?_)
    cases ha
    have ix47 := targetOf_le ht
    have flag := flagOf_le hv
    omega
  · refine exec_badarg h rfl (portSet_badarg fun _ _ q x ha hq hx => ?_)
    cases ha
    rcases bad with large | none
    · exact absurd (portOf_le hq) (by omega)
    · rw [none] at hx; cases hx
  · refine exec_badarg h rfl (portRead_badarg fun _ q ha hq => ?_)
    cases ha
    exact absurd (portOf_le hq) (by omega)
  · refine exec_badarg h rfl (segSet_badarg fun _ _ g x ha hg hx => ?_)
    cases ha
    obtain ⟨_, _, _, _, same, flag, wait, stretch⟩ := setupOfBytes_sound hx
    cases same
    rcases bad with segment | enable | zero | zero
    · exact absurd (segOf_le hg) (by omega)
    · exact absurd flag (by omega)
    · exact wait zero
    · exact stretch zero
  · have unnamed : ∀ b g, [gb] = [b] → segOf b ≠ some g := fun b g same hg => by
      cases same
      exact absurd (segOf_le hg) (by omega)
    exact ⟨fun h => exec_badarg h rfl (segHold_badarg unnamed), fun h => exec_badarg h rfl (segRelease_badarg unnamed),
      fun h => exec_badarg h rfl (segRecover_badarg unnamed), fun h => exec_badarg h rfl (segReset_badarg unnamed)⟩
  · refine exec_badarg h rfl (statusRead_badarg fun _ _ x v ha hx hv => ?_)
    cases ha
    rcases bad with flag | unknown
    · exact absurd (flagOf_le hv) (by omega)
    · exact unknown (selectorOf_mem sel (by rw [hx]; nofun))

end Sys2Proof.Machine
end

section
/-! SUPPORT. The reads: MAP_READ, PORT_READ and STATUS_READ (R155 to R157, R176, R179, R184 to R188). -/
namespace Sys2Proof.Machine

section
variable {s : State} {p q : PortId} {tag n sel fl op : Byte} {e : StoreIx} {u : TargetId} {x : Selector}

/-! ## What an operation finds in the part (R137, R163) -/

theorem port_reserved : (s.reserved p e).port q =
    if q = p then (s.port p).heard.setEntry e (some (StoreEntry.reserve .mreply)) else s.port q := port_setPort_eq ..

theorem mapEntry_reserved : (s.reserved p e).mapEntry u = s.mapEntry u := rfl

theorem mask_reserved : ((s.reserved p e).port q).mask = (s.port q).mask := by
  rw [port_reserved]
  split
  · next own => rw [own]; rfl
  · rfl

/-! ## An entry and a profile (R155, R156) -/

theorem MapEntry.layout_eq_record (m : MapEntry) : m.layout = m.record := by
  obtain ⟨_, segment, form, _, _, _, _, _, _, _, _, _, _, speed, _⟩ := m
  cases segment <;> cases form <;> cases speed <;> rfl

theorem exec_mapRead (h : s.Manages p tag [opMapRead, n] e) (hu : u.val = n.toNat) :
    exec (.mapRead p tag [n]) s = .next (s.replied p e tag opMapRead .done
      (n :: flagByte (s.mapEntry u).valid :: (s.mapEntry u).record)) := by
  rw [exec_of_manages h rfl]
  change Host.Outcome.next ((s.reserved p e).mapRead p e tag [n]) = _
  simp only [State.mapRead, targetOf_of_val hu, mapEntry_reserved, mreply_reserved h.arrives.served]

theorem profileReport_reserved : (s.reserved p e).profileReport q = s.profileReport q := by
  unfold State.profileReport
  rw [port_reserved_profile.1, port_reserved_profile.2, mask_reserved, managers_reserved]

theorem exec_portRead (h : s.Manages p tag [opPortRead, n] e) (hq : q.val = n.toNat) :
    exec (.portRead p tag [n]) s = .next (s.replied p e tag opPortRead .done (s.profileReport q)) := by
  rw [exec_of_manages h rfl]
  change Host.Outcome.next ((s.reserved p e).portRead p e tag [n]) = _
  simp only [State.portRead, portOf_of_val hq, profileReport_reserved, mreply_reserved h.arrives.served]

/-- A profile with no pending switch, byte by byte: nine bytes of 0 at its end (R156). -/
theorem profileReport_of_none (hw : (s.port q).pendingSwitch = none) : s.profileReport q =
    byte q.val :: (s.port q).format.layout ++ [if hasPort s.managers q then 1 else 0, (s.port q).mask.setWidth 8] ++
      [0, 0, 0, 0, 0, 0, 0, 0, 0] := by
  rw [State.profileReport, hw, LineFormat.layout_eq_record, List.append_assoc, List.append_assoc]
  rfl

/-- A profile with its pending switch, byte by byte (R156). -/
theorem profileReport_of_pending {w : PendingSwitch} (hw : (s.port q).pendingSwitch = some w) : s.profileReport q =
    byte q.val :: (s.port q).format.layout ++ [if hasPort s.managers q then 1 else 0, (s.port q).mask.setWidth 8] ++
      1 :: w.format.layout := by
  rw [State.profileReport, hw, LineFormat.layout_eq_record, LineFormat.layout_eq_record, List.append_assoc,
    List.append_assoc]
  rfl

/-! ## The reports (R157, R184 to R187) -/

/-- The occupied entries of a store, counted along it (R162). -/
theorem entries_eq_countP (v : Port) : v.entries = v.store.toList.countP Option.isSome := by
  have store : v.store.toList = allEntries.map fun e => v.store[e] :=
    (congrArg Vector.toList Vector.ofFn_getElem).symm.trans (Vector.toList_ofFn.trans List.ofFn_eq_map)
  rw [store, List.countP_map, List.countP_eq_length_filter]
  rfl

theorem seg_report_reserved (g : SegId) : (s.reserved p e).report (.seg g) = (s.seg g).report :=
  congrArg Seg.report (seg_reserved g)

theorem pool_report_reserved : (s.reserved p e).report .pool = s.poolReport := rfl

theorem selectorOf_port (hq : q.val = sel.toNat) : selectorOf sel = some (.port q) := by
  rw [selectorOf, portOf_of_val hq]

theorem selectorOf_seg (g : SegId) : selectorOf (if g = .A then 0x10 else 0x11) = some (.seg g) := by
  cases g <;> rfl

theorem selectorOf_pool : selectorOf 0x20 = some .pool := rfl

/-! ## The clear flag (R188) -/

/-- A port changed in what no sending reads is as well changed after the reply (R188). -/
theorem mreply_modPort_reserved {f : Port → Port} {st : MgmtStatus} {reply : List Byte} (served : (s.port p).Served)
    (sends : ∀ v y, (f v).sends e y = f (v.sends e y)) (idle : ∀ v : Port, v.Served → (f v).Served) :
    ((s.reserved p e).modPort q f).mreply p e tag op st reply = (s.replied p e tag op st reply).modPort q f := by
  by_cases own : q = p
  · subst own
    rw [State.replied, State.modPort, State.reserved, port_setPort, setPort_setPort,
      mreply_eq_sends (by rw [port_setPort]; exact idle _ served), State.sends, port_setPort, setPort_setPort, sends,
      Port.sends_setEntry, State.heard, State.sends, port_setPort, setPort_setPort, State.modPort, port_setPort,
      setPort_setPort]
  · have replies : ActsAt p fun s => s.mreply p e tag op st reply := actsAt_compose ..
    have changes : ActsAt q fun s => s.modPort q f := actsAt_modPort f
    have commute := replies.comm (s := s.reserved p e) changes own
    rw [← mreply_reserved served]
    exact commute

theorem mreply_clearCounters {st : MgmtStatus} {reply : List Byte} (served : (s.port p).Served) :
    ((s.reserved p e).clearCounters x).mreply p e tag op st reply = (s.replied p e tag op st reply).clearCounters x := by
  cases x with
  | port q =>
    refine mreply_modPort_reserved served (fun v y => ?_) fun v idle => idle
    unfold Port.sends
    split <;> rfl
  | seg g =>
    have reserved : ((s.reserved p e).port p).Served := by rw [State.reserved, port_setPort]; exact served
    rw [State.clearCounters, State.clearCounters, mreply_setSeg reserved, mreply_reserved served, seg_reserved, seg_replied]
  | pool => exact mreply_reserved served

theorem flagOf_of_le (h : fl.toNat ≤ 1) : flagOf fl = some (decide (fl = 1)) := by
  refine flagOf_iff.mpr ?_
  by_cases one : fl = 1
  · simp [one]
  · simp only [one, decide_false, Bool.false_eq_true, if_false]
    bv_omega

/-- A STATUS_READ replies with the report as it stands, and clears after it when asked (R184, R188). -/
theorem exec_statusRead (h : s.Manages p tag [opStatusRead, sel, fl] e) (flag : fl.toNat ≤ 1)
    (hx : selectorOf sel = some x) {report : List Byte} (reports : (s.reserved p e).report x = report) :
    exec (.statusRead p tag [sel, fl]) s = .next
      (if fl = 1 then (s.replied p e tag opStatusRead .done (sel :: report)).clearCounters x
      else s.replied p e tag opStatusRead .done (sel :: report)) := by
  rw [exec_of_manages h rfl]
  change Host.Outcome.next ((s.reserved p e).statusRead p e tag [sel, fl]) = _
  simp only [State.statusRead, hx, flagOf_of_le flag, reports, decide_eq_true_eq]
  split
  · rw [mreply_clearCounters h.arrives.served]
  · rw [mreply_reserved h.arrives.served]

end

/-- Settles O25: an index or a number that names nothing is answered BADARG; any other is reported as it stands. -/
theorem readsReportTheEntryAndTheProfile : Obligations.ReadsReportTheEntryAndTheProfile := by
  intro p tag n e s
  refine ⟨fun h => ⟨fun large => ?_, fun u hu => ?_⟩, fun h => ⟨fun large => ?_, fun q hq => ?_⟩⟩
  · refine exec_badarg h rfl (mapRead_badarg fun _ t ha ht => ?_)
    cases ha
    exact absurd (targetOf_le ht) (by omega)
  · rw [exec_mapRead h hu, MapEntry.layout_eq_record]
    rfl
  · refine exec_badarg h rfl (portRead_badarg fun _ q ha hq => ?_)
    cases ha
    exact absurd (portOf_le hq) (by omega)
  · have named : byte q.val = n := by rw [hq, byte_toNat]
    rw [exec_portRead h hq]
    cases hw : (s.port q).pendingSwitch with
    | none => rw [profileReport_of_none hw, named]; rfl
    | some w => rw [profileReport_of_pending hw, named]; rfl

/-- Settles O34: the report of each selector is the one its bytes tell, and only the counters it reports are cleared. -/
theorem statusReadReportsAndClears : Obligations.StatusReadReportsAndClears := by
  intro p tag sel fl e s h flag words
  refine ⟨fun q hq => ?_, fun g hg => ?_, fun hp => ?_⟩
  · intro v k done
    have port : (s.reserved p e).port q = v := port_reserved
    refine exec_statusRead h flag (selectorOf_port hq) ?_
    rw [State.report, State.portReport, port, entries_eq_countP]
    rfl
  · intro v k done
    have seg : done.seg g = v := seg_replied g
    refine (exec_statusRead h flag (hg ▸ selectorOf_seg g) (seg_report_reserved g)).trans ?_
    rw [← seg]
    rfl
  · subst hp
    refine (exec_statusRead h flag selectorOf_pool pool_report_reserved).trans (congrArg _ ?_)
    rw [State.clearCounters, ite_self]
    rfl

end Sys2Proof.Machine
end

section
/-! SUPPORT. SEG_HOLD, SEG_RELEASE and RESTART (R55, R57, R181, R189). -/
namespace Sys2Proof.Machine

section
variable {s : State} {p : PortId} {tag gb op : Byte} {e : StoreIx} {g : SegId}

/-! ## The held flag (R55, R57, R181) -/

/-- A held flag that stands as asked is only reported; another is changed ahead of the reply (R181). -/
theorem setHeld_reserved (asked : Bool) (served : (s.port p).Served) :
    (s.reserved p e).setHeld p e tag op g asked =
      if (s.seg g).held = asked then s.replied p e tag op .noeffect []
      else (s.replied p e tag op .done []).setSeg g { s.seg g with held := asked } := by
  have reserved : ((s.reserved p e).port p).Served := by rw [State.reserved, port_setPort]; exact served
  rw [State.setHeld, mreply_setSeg reserved, mreply_reserved served, mreply_reserved served, seg_reserved]

theorem exec_segHold (named : gb = if g = .A then 0 else 1) (h : s.Manages p tag [opSegHold, gb] e) :
    exec (.segHold p tag [gb]) s = .next
      (if (s.seg g).held = true then s.replied p e tag opSegHold .noeffect []
      else (s.replied p e tag opSegHold .done []).setSeg g { s.seg g with held := true }) := by
  rw [exec_of_manages h rfl, ← setHeld_reserved true h.arrives.served]
  change Host.Outcome.next ((s.reserved p e).segHold p e tag [gb]) = _
  simp only [State.segHold, segOf_iff.mpr named]

theorem exec_segRelease (named : gb = if g = .A then 0 else 1) (h : s.Manages p tag [opSegRelease, gb] e) :
    exec (.segRelease p tag [gb]) s = .next
      (if (s.seg g).held = false then s.replied p e tag opSegRelease .noeffect []
      else (s.replied p e tag opSegRelease .done []).setSeg g { s.seg g with held := false }) := by
  rw [exec_of_manages h rfl, ← setHeld_reserved false h.arrives.served]
  change Host.Outcome.next ((s.reserved p e).segRelease p e tag [gb]) = _
  simp only [State.segRelease, segOf_iff.mpr named]

/-! ## The reply to RESTART (R189) -/

/-- A message composed in the entry that the gate reserved is sent there (R163). -/
theorem compose_reserved {x : StoreEntry} (served : (s.port p).Served) :
    (s.reserved p e).compose p e x = (s.heard p).sends p e x := by
  have reserved : ((s.reserved p e).port p).Served := by rw [State.reserved, port_setPort]; exact served
  rw [compose_eq_sends reserved, State.sends, State.reserved, State.sends, State.heard]
  simp only [port_setPort, setPort_setPort, Port.sends_setEntry]

end

/-- Settles O30: each operation asks for its own value of the flag, and the flag decides between the two replies. -/
theorem holdAndReleaseSetTheFlag : Obligations.HoldAndReleaseSetTheFlag := by
  intro p tag gb g e s named
  refine ⟨fun h => ⟨fun clear => ?_, fun held => ?_⟩, fun h => ⟨fun held => ?_, fun clear => ?_⟩⟩
  · exact (exec_segHold named h).trans (congrArg _ (if_neg (by rw [clear]; nofun)))
  · exact (exec_segHold named h).trans (congrArg _ (if_pos held))
  · exact (exec_segRelease named h).trans (congrArg _ (if_neg (by rw [held]; nofun)))
  · exact (exec_segRelease named h).trans (congrArg _ (if_pos clear))

/-- Settles O35: the operation only composes its marked reply, and the entry that the gate reserved takes it. -/
theorem restartWaitsForItsReply : Obligations.RestartWaitsForItsReply := by
  intro p tag e s h
  rw [exec_of_manages h rfl]
  change Host.Outcome.next ((s.reserved p e).restartOp p e tag []) = _
  rw [State.restartOp, compose_reserved h.arrives.served]
  rfl

end Sys2Proof.Machine
end

section
/-! SUPPORT. The queue of waiting commands (log entry 1): no operation of the part touches it. -/
namespace Sys2Proof.Machine

/-! ## Operations that leave the queue -/

section
variable (s : State) (p q : PortId) (i : SlotId) (g : SegId) (a : Attempt)

@[simp] theorem pending_modPort (f : Port → Port) : (s.modPort p f).pending = s.pending := rfl
@[simp] theorem pending_modSlot (f : Slot → Slot) : (s.modSlot i f).pending = s.pending := rfl
@[simp] theorem pending_releaseSlot : (s.releaseSlot i).pending = s.pending := rfl
@[simp] theorem pending_modSeg (f : Seg → Seg) : (s.modSeg g f).pending = s.pending := pending_setSeg s g _

/-- An operation that takes place only where a condition holds. -/
theorem pending_when {c : Prop} [Decidable c] {s t : State} (h : t.pending = s.pending) :
    (if c then t else s).pending = s.pending := by
  split
  · exact h
  · rfl

/-- A fold of steps that leave the queue leaves it. -/
theorem pending_foldl {α : Type} {f : State → α → State} (h : ∀ s x, (f s x).pending = s.pending) (l : List α)
    (s : State) : (l.foldl f s).pending = s.pending :=
  (List.foldl_hom State.pending (g₂ := fun waiting _ => waiting) fun s x => (h s x).symm).symm.trans
    (List.foldl_fixed l)

/-! The outgoing side (R158 to R166). -/

@[simp] theorem pending_give : (s.give p).pending = s.pending := by unfold State.give; split <;> rfl

@[simp] theorem pending_enqueue (item : Item) : (s.enqueue p item).pending = s.pending := pending_give _ _

@[simp] theorem pending_compose (e : StoreIx) (x : StoreEntry) : (s.compose p e x).pending = s.pending :=
  pending_enqueue _ _ _

@[simp] theorem pending_refuse (e : StoreIx) (reason : Reason) (kind tag : Byte) :
    (s.refuse p e reason kind tag).pending = s.pending := pending_compose _ _ _ _

@[simp] theorem pending_mreply (e : StoreIx) (tag op : Byte) (status : MgmtStatus) (reply : List Byte) :
    (s.mreply p e tag op status reply).pending = s.pending := pending_compose _ _ _ _

@[simp] theorem pending_badarg (e : StoreIx) (tag op : Byte) : (s.badarg p e tag op).pending = s.pending :=
  pending_mreply _ _ _ _ _ _ _

@[simp] theorem pending_canreply (e : StoreIx) (tag : Byte) (o : CancelOutcome) (named : Byte) :
    (s.canreply p e tag o named).pending = s.pending := pending_compose _ _ _ _

/-- A host message that passes the gate leaves the queue when its handler does; one discarded there is only counted
(R163). -/
theorem pending_gate {kind : ShortKind} {k : StoreIx → State → State} (h : ∀ e s, (k e s).pending = s.pending) :
    (s.gate p kind k).pending = s.pending := by
  unfold State.gate
  split
  · exact h _ _
  · rfl

@[simp] theorem pending_gatedRefuse (reason : Reason) (kind tag : Byte) :
    (s.gatedRefuse p reason kind tag).pending = s.pending := pending_gate _ _ fun _ s => pending_refuse s _ _ _ _ _

@[simp] theorem pending_notice (kind : NoticeKind) (arg : Byte) : (s.notice p kind arg).pending = s.pending := by
  unfold State.notice
  dsimp only
  split
  · exact pending_compose _ _ _ _
  · rfl

@[simp] theorem pending_noticeTo (ps : List PortId) (kind : NoticeKind) (arg : Byte) :
    (s.noticeTo ps kind arg).pending = s.pending :=
  pending_foldl (fun s p => pending_when (pending_notice s p kind arg)) ps s

/-! The slot pool and the schedulers (R22 to R54). -/

@[simp] theorem pending_answer (res : Result) : (s.answer i res).pending = s.pending := pending_enqueue _ _ _

@[simp] theorem pending_unlist : (s.unlist i).pending = s.pending := pending_setSeg _ _ _

@[simp] theorem pending_withdraw (status : Status) : (s.withdraw i status).pending = s.pending :=
  (pending_answer _ _ _).trans (pending_unlist s i)

@[simp] theorem pending_rejoin : (s.rejoin i).pending = s.pending := pending_setSeg _ _ _

@[simp] theorem pending_purge (t : TargetId) : (s.purge t).pending = s.pending :=
  pending_foldl (fun s i => pending_withdraw s i .retired) _ _

@[simp] theorem pending_failList : (s.failList g).pending = s.pending :=
  pending_foldl (fun s i => pending_withdraw s i .segfault) _ _

@[simp] theorem pending_goBack (st : RequestState) (timer : Option Nat) :
    (s.goBack i st timer).pending = s.pending := by
  unfold State.goBack
  split <;> simp

@[simp] theorem pending_afterFailure (f : Failure) (n : Nat) : (s.afterFailure i f n).pending = s.pending := by
  unfold State.afterFailure
  split
  · unfold State.afterAddressNack; dsimp only; split <;> simp
  · unfold State.afterLoss; dsimp only; split <;> simp
  all_goals exact pending_answer _ _ _

@[simp] theorem pending_settle (f : Option Failure) : (s.settle a f).pending = s.pending := by
  unfold State.settle
  split
  · rfl
  · split <;> simp

@[simp] theorem pending_choose : (s.choose g i).pending = s.pending :=
  (pending_modSeg _ _ _).trans (pending_foldl (fun _ _ => pending_modSlot _ _ _) _ _)

@[simp] theorem pending_expireLifetime : (s.expireLifetime i).pending = s.pending := by
  unfold State.expireLifetime
  dsimp only
  split <;> simp

@[simp] theorem pending_fillSlot (tag : Byte) (x : Admission) : (s.fillSlot p tag x).pending = s.pending :=
  pending_setSeg _ _ _

@[simp] theorem pending_takeTxn (tag : Byte) (body : List Byte) : (s.takeTxn p tag body).pending = s.pending := by
  unfold State.takeTxn
  split <;> simp

@[simp] theorem pending_cancelNamed (e : StoreIx) (tag named : Byte) :
    (s.cancelNamed p e tag named).pending = s.pending := by
  unfold State.cancelNamed
  split
  · simp
  · split <;> simp

@[simp] theorem pending_takeCancel (tag : Byte) (body : List Byte) : (s.takeCancel p tag body).pending = s.pending :=
  pending_gate _ _ fun e s => by split <;> simp

/-! Segments and their running attempts (R60 to R107). -/

@[simp] theorem pending_answerRecovery (status : MgmtStatus) : (s.answerRecovery g status).pending = s.pending := by
  unfold State.answerRecovery
  split
  · rfl
  · dsimp only; split <;> simp

@[simp] theorem pending_enterIdle : (s.enterIdle g).pending = s.pending := by
  unfold State.enterIdle
  dsimp only
  split <;> simp

@[simp] theorem pending_enterFault : (s.enterFault g).pending = s.pending := by simp [State.enterFault]

@[simp] theorem pending_pulseOrFault (scl : Bool) : (s.pulseOrFault g scl).pending = s.pending := by
  unfold State.pulseOrFault
  split <;> simp

@[simp] theorem pending_endAttempt (first : Option Failure) (second : Option FailKind) (toCheck opens : Bool) :
    (s.endAttempt g a first second toCheck opens).pending = s.pending :=
  (pending_modSeg _ _ _).trans (pending_settle s a first)

@[simp] theorem pending_endFollowing : (s.endFollowing g a).pending = s.pending := pending_endAttempt _ _ _ _ _ _ _

@[simp] theorem pending_setAttempt : (s.setAttempt g a).pending = s.pending := pending_modSeg _ _ _

/-- A command that meets a running attempt leaves the queue when its effect does. -/
theorem pending_inRun {f : Attempt → State} (h : ∀ a, (f a).pending = s.pending) :
    (s.inRun g f).pending = s.pending := by
  unfold State.inRun
  split
  · exact h _
  · rfl

@[simp] theorem pending_meetStart : (s.meetStart g).pending = s.pending := by
  unfold State.meetStart
  split
  · exact pending_when (pending_endAttempt _ _ _ _ _ _ _)
  · rfl

@[simp] theorem pending_meetCondition : (s.meetCondition g).pending = s.pending := by
  unfold State.meetCondition
  split
  · exact pending_when (pending_endFollowing _ _ _)
  · rfl

@[simp] theorem pending_meetRestart : (s.meetRestart g).pending = s.pending :=
  pending_inRun _ _ fun _ => pending_when (pending_setAttempt _ _ _)

@[simp] theorem pending_meetClockLow (fell : Bool) : (s.meetClockLow g fell).pending = s.pending :=
  pending_inRun _ _ fun _ => pending_setAttempt _ _ _

@[simp] theorem pending_openAttempt : (s.openAttempt g a).pending = s.pending := pending_modSeg _ _ _

@[simp] theorem pending_loseArbitration (how : LossCause) : (s.loseArbitration g a how).pending = s.pending := by
  unfold State.loseArbitration
  split
  · simp
  · split <;> simp

@[simp] theorem pending_completeStop (toCheck : Bool) : (s.completeStop g a toCheck).pending = s.pending :=
  (pending_endAttempt _ _ _ _ _ _ _).trans (pending_modSeg s g _)

@[simp] theorem pending_stretchOut : (s.stretchOut g a).pending = s.pending := by
  unfold State.stretchOut
  split <;> simp

@[simp] theorem pending_abort : (s.abort g a).pending = s.pending := by
  unfold State.abort
  split <;> simp

@[simp] theorem pending_resetRun : (s.resetRun g a).pending = s.pending := by
  unfold State.resetRun
  split
  · simp
  · split <;> simp

/-! The line of a port (R118 to R130). -/

@[simp] theorem pending_endBreak : (s.endBreak p).pending = s.pending := by simp [State.endBreak]

@[simp] theorem pending_endBreakIfMark : (s.endBreakIfMark p).pending = s.pending := pending_when (pending_endBreak s p)

@[simp] theorem pending_switchNow (f : LineFormat) : (s.switchNow p f).pending = s.pending := by
  unfold State.switchNow
  split <;> simp

theorem pending_restartSlot : (s.restartSlot p i).pending = s.pending := by
  refine pending_when ?_
  split <;> simp

@[simp] theorem pending_dropRecovery : (s.dropRecovery p g).pending = s.pending := by
  unfold State.dropRecovery
  split
  · exact pending_when (pending_setSeg _ _ _)
  · rfl

@[simp] theorem pending_portRestart : (s.portRestart p).pending = s.pending := by
  simp only [State.portRestart, pending_endBreakIfMark, pending_dropRecovery]
  exact pending_foldl (fun s i => pending_restartSlot s p i) _ _

@[simp] theorem pending_releaseItem (item : Item) : (s.releaseItem p item).pending = s.pending := by
  cases item <;> rfl

@[simp] theorem pending_switchAt (item : Item) : (s.switchAt p item).pending = s.pending := by
  unfold State.switchAt
  split
  · exact pending_when (pending_modPort _ _ _)
  · rfl

/-- A part that starts again at a completed transmission keeps the waiting commands (R190; log entry 22). -/
theorem pending_complete (item : Item) (rest : List Item) : (s.complete p item rest).pending = s.pending := by
  have released : (((s.modPort p fun v => { v with queue := rest, tx := .idle, txFrame := [] }).releaseItem p
      item).switchAt p item).pending = s.pending := by simp
  unfold State.complete
  dsimp only
  split
  · exact released
  · exact (pending_give _ _).trans released

/-! Management operations (R173 to R189). -/

variable (e : StoreIx) (tag : Byte) (args : List Byte)

@[simp] theorem pending_mapWrite : (s.mapWrite p e tag args).pending = s.pending := by
  unfold State.mapWrite
  split
  · split <;> simp [State.writeEntry]
  · simp

@[simp] theorem pending_mapRead : (s.mapRead p e tag args).pending = s.pending := by
  unfold State.mapRead
  split
  · split <;> simp
  · simp

theorem pending_retireEntry (t : TargetId) (purge : Bool) : (s.retireEntry p t purge).pending = s.pending := by
  have purged (s : State) : (if purge then s.purge t else s).pending = s.pending := pending_when (pending_purge s t)
  unfold State.retireEntry
  dsimp only
  split
  · rw [pending_noticeTo, purged, pending_setMapEntry]
  · rw [purged, pending_setMapEntry]

@[simp] theorem pending_mapRetire : (s.mapRetire p e tag args).pending = s.pending := by
  unfold State.mapRetire
  split
  · split
    · rw [pending_mreply, pending_retireEntry]
    · simp
  · simp

theorem pending_setFormat (f : LineFormat) : (s.setFormat p q e f).pending = s.pending := by
  unfold State.setFormat
  split
  · rfl
  · split
    · simp
    · split <;> simp

@[simp] theorem pending_portSet : (s.portSet p e tag args).pending = s.pending := by
  have set (q : PortId) (x : Profile) : (s.setProfile p q e x).pending = s.pending := pending_setFormat _ _ _ _ _
  unfold State.portSet
  split
  · split
    · split
      · simp
      · split <;> simp [set]
    · simp
  · simp

@[simp] theorem pending_portRead : (s.portRead p e tag args).pending = s.pending := by
  unfold State.portRead
  split
  · split <;> simp
  · simp

@[simp] theorem pending_segSet : (s.segSet p e tag args).pending = s.pending := by
  unfold State.segSet
  split
  · split
    · split <;> simp
    · simp
  · simp

@[simp] theorem pending_setHeld (op : Byte) (held : Bool) : (s.setHeld p e tag op g held).pending = s.pending := by
  unfold State.setHeld
  split <;> simp

@[simp] theorem pending_segHold : (s.segHold p e tag args).pending = s.pending := by
  unfold State.segHold
  split
  · split <;> simp
  · simp

@[simp] theorem pending_segRelease : (s.segRelease p e tag args).pending = s.pending := by
  unfold State.segRelease
  split
  · split <;> simp
  · simp

@[simp] theorem pending_segRecover : (s.segRecover p e tag args).pending = s.pending := by
  unfold State.segRecover
  split
  · split
    · split <;> simp [State.startRecovery]
    · simp
  · simp

@[simp] theorem pending_segReset : (s.segReset p e tag args).pending = s.pending := by
  unfold State.segReset
  split
  · split
    · split <;> simp
    · simp
  · simp

@[simp] theorem pending_clearCounters (x : Selector) : (s.clearCounters x).pending = s.pending := by
  cases x <;> simp [State.clearCounters]

@[simp] theorem pending_statusRead : (s.statusRead p e tag args).pending = s.pending := by
  unfold State.statusRead
  split
  · split
    · exact (pending_mreply _ _ _ _ _ _ _).trans (pending_when (pending_clearCounters s _))
    · simp
  · simp

@[simp] theorem pending_restartOp : (s.restartOp p e tag args).pending = s.pending := by
  unfold State.restartOp
  split <;> simp

/-- Whichever operation a code names leaves the queue, and so does the refusal of a code that names none (R147). -/
theorem pending_mgmtOp (op : Byte) : (s.mgmtOp p e tag op args).pending = s.pending := by
  simp only [State.mgmtOp, apply_ite State.pending, pending_mapWrite, pending_mapRead, pending_mapRetire,
    pending_portSet, pending_portRead, pending_segSet, pending_segHold, pending_segRelease, pending_segRecover,
    pending_segReset, pending_statusRead, pending_restartOp, pending_refuse, ite_self]

/-! Messages and characters (R137 to R144). -/

variable (kind : Byte) (body : List Byte)

@[simp] theorem pending_takeMgmt : (s.takeMgmt p tag body).pending = s.pending := by
  refine pending_gate _ _ fun e s => ?_
  split
  · exact pending_refuse _ _ _ _ _ _
  · split
    · exact pending_refuse _ _ _ _ _ _
    · exact pending_mgmtOp _ _ _ _ _ _

theorem pending_takeMessage : (s.takeMessage p kind tag body).pending = s.pending := by
  simp only [State.takeMessage, apply_ite State.pending, pending_gatedRefuse, pending_takeTxn, pending_takeCancel,
    pending_takeMgmt, pending_modPort, ite_self]

theorem pending_judgeFrame (crc : BitVec 16) : (s.judgeFrame p kind tag body crc).pending = s.pending := by
  unfold State.judgeFrame
  dsimp only
  split
  · exact pending_takeMessage _ _ _ _ _
  · rfl

theorem pending_completeFrame (crc : BitVec 16) : (s.completeFrame p kind tag body crc).pending = s.pending :=
  pending_when (pending_judgeFrame _ _ _ _ _ _)

theorem pending_completeMessage : (s.completeMessage p kind tag body).pending = s.pending :=
  pending_completeFrame _ _ _ _ _ _

theorem pending_judgeBuffer (buffer : List Byte) : (s.judgeBuffer p buffer).pending = s.pending := by
  unfold State.judgeBuffer
  split
  · split
    · exact pending_judgeFrame _ _ _ _ _ _
    · rfl
  · rfl

theorem pending_receiveByte (b : Byte) : (s.receiveByte p b).pending = s.pending := by
  unfold State.receiveByte
  dsimp only
  split
  · rfl
  · split
    · exact pending_judgeBuffer _ _ _
    · rfl

theorem pending_assembleByte (b : Byte) : (s.assembleByte p b).pending = s.pending := by
  unfold State.assembleByte
  split
  · split <;> rfl
  · exact pending_receiveByte _ _ _
  · rfl

theorem pending_endCharacter (c : RxChar) : (s.endCharacter p c).pending = s.pending := by
  unfold State.endCharacter
  dsimp only
  split
  · exact pending_assembleByte _ _ _
  · rfl
  · split <;> rfl

end

/-! ## Commands -/

/-- An outcome of a command on `s` that is a next state with the queue of `s` (log entries 1, 23). -/
def State.Completes (s : State) (o : Host.Outcome State Fault Refusal) : Prop :=
  ∃ t, o = .next t ∧ t.pending = s.pending

section
variable {s : State} {g : SegId}

/-- A command that acts while RESETN is high completes when its effect leaves the queue. -/
theorem completes_running {f : State → State} (h : (f s).pending = s.pending) : s.Completes (s.running f) := by
  unfold State.running
  split
  · exact ⟨f s, rfl, h⟩
  · exact ⟨s, rfl, rfl⟩

/-- A command whose event occurs only under a condition, and else changes nothing (log entry 2). -/
theorem completes_when {c : State → Prop} [∀ s, Decidable (c s)] {f : State → State}
    (h : (f s).pending = s.pending) : s.Completes (s.running fun s => if c s then f s else s) :=
  completes_running (pending_when h)

/-- A command that a condition keeps from acting: its event cannot occur there, or its words are those of another
command (log entry 2). -/
theorem completes_unless {c : State → Prop} [∀ s, Decidable (c s)] {f : State → State}
    (h : (f s).pending = s.pending) : s.Completes (s.running fun s => if c s then s else f s) := by
  refine completes_running ?_
  split
  · rfl
  · exact h

/-- A command that meets a running attempt. -/
theorem completes_inRun {f : State → Attempt → State} (h : ∀ a, (f s a).pending = s.pending) :
    s.Completes (s.running fun s => s.inRun g (f s)) := completes_running (pending_inRun s g h)

/-- A command that is an attempt's stop completed (R73 to R75, R80). -/
theorem completes_stop (kind : Option FailKind) (toCheck : Bool) :
    s.Completes (s.running fun s => s.inRun g fun a => if a.stopsWith kind then s.completeStop g a toCheck else s) :=
  completes_inRun fun a => pending_when (pending_completeStop s g a toCheck)

/-- A command that is the arrival of a message (log entry 3). -/
theorem completes_message (p : PortId) (kind tag : Byte) (body : List Byte) :
    s.Completes (s.running fun s => s.completeMessage p kind tag body) :=
  completes_running (pending_completeMessage s p tag kind body)

end

/-- The commands of a segment's engine and monitor complete. -/
theorem segment_completes {c : Instr} {g : SegId} (hg : segmentOf c = some g) (s : State) : s.Completes (exec c s) := by
  cases c with dsimp only [exec]
  | choice g =>
    refine completes_when ?_
    split
    · exact pending_choose _ _ _
    · rfl
  | openingStart g => exact completes_inRun fun a => pending_when (pending_openAttempt s g a)
  | attemptEndsOk g => exact completes_stop _ _
  | attemptEndsAddressNack g => exact completes_stop _ _
  | attemptEndsDataNack g => exact completes_stop _ _
  | attemptEndsAborted g => exact completes_stop _ _
  | attemptEndsArbitrationLost g => exact completes_inRun fun a => pending_when (pending_endFollowing s g a)
  | stretchTimeout g =>
    refine completes_inRun fun a => ?_
    split <;> simp
  | acknowledgeBitRead g data ninth => exact completes_inRun fun a => pending_when (pending_modSeg s g _)
  | arbitrationLost g how => exact completes_inRun fun a => pending_when (by simp)
  | monitorStartSeen g => exact completes_running (by simp)
  | monitorStopSeen g => exact completes_unless (by simp)
  | lineLow g l =>
    refine completes_unless ?_
    dsimp only
    split <;> simp
  | bothLinesHigh g => exact completes_running (pending_modSeg s g _)
  | busFreeTimerExpiry g => exact completes_when (pending_modSeg s g _)
  | busyLongTimerExpiry g =>
    refine completes_when ?_
    dsimp only
    split <;> simp
  | quietTimerExpiry g =>
    refine completes_when ?_
    split <;> simp
  | dataHeldTimerExpiry g => exact completes_when (pending_modSeg s g _)
  | clockHeldTimerExpiry g => exact completes_when (pending_enterFault s g)
  | closingStopComplete g => exact completes_when (by simp)
  | closingStopFails g how =>
    refine completes_when ?_
    cases how <;> simp
  | releasePulse g data =>
    refine completes_when ?_
    dsimp only
    split <;> simp
  | recoveryClockHeld g => exact completes_when (by simp)
  | recoveryStopComplete g how =>
    refine completes_when ?_
    cases how <;> simp
  | _ => cases hg

/-- Every command completes: an event of a segment, a reset, an event of a port's line, a message, or a timer of a
request. -/
theorem exec_completes (c : Instr) (s : State) : s.Completes (exec c s) := by
  cases hg : segmentOf c with
  | some g => exact segment_completes hg s
  | none =>
    cases c with dsimp only [exec]
    | deviceReset => exact ⟨s.inReset, rfl, rfl⟩
    | deviceResetEnd a b =>
      change s.Completes (if s.resetn then .next s else .next (s.started a b))
      split
      · exact ⟨s, rfl, rfl⟩
      · exact ⟨s.started a b, rfl, rfl⟩
    | startBit p stands => exact completes_when rfl
    | characterReceived p c => exact completes_when (pending_endCharacter s p c)
    | breakWatchEndsAtMark p =>
      refine completes_running ?_
      split <;> rfl
    | gapTimerExpiry p => exact completes_when rfl
    | breakRecognized p => exact completes_when (pending_portRestart s p)
    | breakEnd p => exact completes_when (pending_endBreak s p)
    | messageTransmitted p =>
      refine completes_running ?_
      split
      · exact pending_complete _ _ _ _
      · rfl
    | transmitterHeld p => exact completes_when (pending_give _ p)
    | crcError p kind tag body crc => exact completes_unless (pending_completeFrame s p tag kind body crc)
    | badverBadkindMessage p kind tag body => exact completes_unless (pending_completeMessage s p tag kind body)
    | mgmtBadop p tag body => exact completes_unless (pending_completeMessage s p tag kindMgmt body)
    | txn p tag body => exact completes_message p kindTxn tag body
    | cancel p tag body => exact completes_message p kindCancel tag body
    | mapWrite p tag args => exact completes_message p kindMgmt tag (opMapWrite :: args)
    | mapRead p tag args => exact completes_message p kindMgmt tag (opMapRead :: args)
    | mapRetire p tag args => exact completes_message p kindMgmt tag (opMapRetire :: args)
    | portSet p tag args => exact completes_message p kindMgmt tag (opPortSet :: args)
    | portRead p tag args => exact completes_message p kindMgmt tag (opPortRead :: args)
    | segSet p tag args => exact completes_message p kindMgmt tag (opSegSet :: args)
    | segHold p tag args => exact completes_message p kindMgmt tag (opSegHold :: args)
    | segRelease p tag args => exact completes_message p kindMgmt tag (opSegRelease :: args)
    | segRecover p tag args => exact completes_message p kindMgmt tag (opSegRecover :: args)
    | segReset p tag args => exact completes_message p kindMgmt tag (opSegReset :: args)
    | statusRead p tag args => exact completes_message p kindMgmt tag (opStatusRead :: args)
    | restart p tag args => exact completes_message p kindMgmt tag (opRestart :: args)
    | retryTimerExpiry i => exact completes_when rfl
    | lifetimeExpiry i => exact completes_when (pending_expireLifetime s i)
    | _ => cases hg

/-! ## A step -/

/-- With no command waiting the part idles (log entry 1). -/
theorem step_of_empty {s : State} (h : s.pending = []) : step s = .next s := by rw [step, h]

/-- A step takes the command at the front and leaves the rest of the queue waiting (log entry 1). -/
theorem step_of_front (c : Instr) (rest : List Instr) (s : State) :
    step { s with pending := c :: rest } = exec c { s with pending := rest } := rfl

/-- Settles O1: the two cases of the queue. -/
theorem stepRunsTheFrontCommand : Obligations.StepRunsTheFrontCommand := ⟨step_of_front, fun _ => step_of_empty⟩

/-- Settles O2: no outcome of a command is a stop, and every operation leaves the queue. -/
theorem everyCommandCompletes : Obligations.EveryCommandCompletes := exec_completes

end Sys2Proof.Machine
end
